-- ==== Sys2Proof/Word.lean ====
section
/-! DEFINITION. Word.lean: the units the block counts in. The byte is 8 bits everywhere (spec/20_memory.md R60,
spec/00_scope.md R9); the one 16-bit quantity is the header number of R108 and the close code of R101; lengths are
64 bits wide (R28, R29). Every number is unsigned (R10). -/

namespace Sys2Proof

/-- One byte; bit 7 is the most significant bit (R9). -/
abbrev Byte := BitVec 8

/-- A 16-bit number: a close code (R101), or the two header bytes read as `byte0 * 256 + byte1` (R108). -/
abbrev Word := BitVec 16

/-- A 64-bit unsigned length register (R28, R29). -/
abbrev Length := BitVec 64

end Sys2Proof
end

