-- ==== Sys2Proof/Config.lean ====
section
/-! DEFINITION. Config.lean: the parameter table of spec/00_scope.md R7, as the one record R8 asks for. The fixed and the
decided rows carry the table's values. The three OPEN rows are opaque constants without a body, so no proof can
see a value of theirs and every statement holds whatever they are (assumption log 1). -/

namespace Sys2Proof

/-- The encoding of the register `state`, a number for each of its five values. -/
structure StateEncoding where
  awaitHeader  : BitVec 3
  awaitLength  : BitVec 3
  awaitMaskKey : BitVec 3
  awaitPayload : BitVec 3
  closePending : BitVec 3
  deriving DecidableEq, Repr

/-- The parameters of the block (R7), every row that has a value or is OPEN. All are fixed at start-up (R36). The last row of
R7, listening port and allowed origins, has none: it is outside the block. -/
structure Config where
  /-- `MAX_MESSAGE_SIZE`, in bytes. -/
  maxMessageSize  : Nat
  /-- `PROTOCOL_VERSION`; no rule of the block reads it. -/
  protocolVersion : Nat
  /-- `CODE_PINGPONG`. -/
  codePingPong    : Word
  /-- `CODE_TOO_BIG`. -/
  codeTooBig      : Word
  /-- `CODE_EMPTY`. -/
  codeEmpty       : Word
  /-- `CODE_NO_STATUS`. -/
  codeNoStatus    : Word
  /-- `CODE_GOING_AWAY`, recognised and never sent by the block's own choice. -/
  codeGoingAway   : Word
  /-- `CODE_UNMASKED` (OPEN). -/
  codeUnmasked    : Word
  /-- `REASON_UNMASKED` (OPEN). -/
  reasonUnmasked  : List Byte
  /-- `REASON_PINGPONG`. -/
  reasonPingPong  : List Byte
  /-- `REASON_TOO_BIG`. -/
  reasonTooBig    : List Byte
  /-- `REASON_EMPTY`. -/
  reasonEmpty     : List Byte
  /-- `REASON_NO_STATUS`. -/
  reasonNoStatus  : List Byte
  /-- `REASON_FAREWELL` (OPEN). -/
  reasonFarewell  : List Byte
  /-- Width of `frame_payload_length`, in bits. State's types have this width and the next two (`register_widths`). -/
  framePayloadLengthBits : Nat
  /-- Width of `total_payload_length`, in bits (D8). -/
  totalPayloadLengthBits : Nat
  /-- Width of `frames_received`, in bits (D8). -/
  framesReceivedBits     : Nat
  /-- Input queue capacity in bytes; none is unbounded (D9, D19). -/
  inputQueueCapacity     : Option Nat
  /-- `state` encoding (D18). -/
  stateEncoding          : StateEncoding
  deriving DecidableEq, Repr

/-- FREE VALUE (R7 OPEN, D1; log 1): the close code sent for an unmasked frame. -/
opaque Config.openCodeUnmasked : Word

/-- FREE VALUE (R7 OPEN, D1; log 1): the reason sent for an unmasked frame. -/
opaque Config.openReasonUnmasked : List Byte

/-- FREE VALUE (R7 OPEN, D3; log 1): the farewell reason of a close reply. -/
opaque Config.openReasonFarewell : List Byte

/-- The block's parameters. The reason strings are the ASCII bytes of the phrases R7 gives. -/
def config : Config where
  maxMessageSize  := 1048576
  protocolVersion := 13
  codePingPong    := 1003
  codeTooBig      := 1009
  codeEmpty       := 1008
  codeNoStatus    := 1008
  codeGoingAway   := 1001
  codeUnmasked    := Config.openCodeUnmasked
  reasonUnmasked  := Config.openReasonUnmasked
  -- "ping/pong unsupported"
  reasonPingPong  := [0x70, 0x69, 0x6E, 0x67, 0x2F, 0x70, 0x6F, 0x6E, 0x67, 0x20, 0x75, 0x6E, 0x73, 0x75, 0x70,
                      0x70, 0x6F, 0x72, 0x74, 0x65, 0x64]
  -- "message too big"
  reasonTooBig    := [0x6D, 0x65, 0x73, 0x73, 0x61, 0x67, 0x65, 0x20, 0x74, 0x6F, 0x6F, 0x20, 0x62, 0x69, 0x67]
  -- "empty payload not allowed"
  reasonEmpty     := [0x65, 0x6D, 0x70, 0x74, 0x79, 0x20, 0x70, 0x61, 0x79, 0x6C, 0x6F, 0x61, 0x64, 0x20, 0x6E,
                      0x6F, 0x74, 0x20, 0x61, 0x6C, 0x6C, 0x6F, 0x77, 0x65, 0x64]
  -- "status code required"
  reasonNoStatus  := [0x73, 0x74, 0x61, 0x74, 0x75, 0x73, 0x20, 0x63, 0x6F, 0x64, 0x65, 0x20, 0x72, 0x65, 0x71,
                      0x75, 0x69, 0x72, 0x65, 0x64]
  reasonFarewell  := Config.openReasonFarewell
  framePayloadLengthBits := 64
  totalPayloadLengthBits := 64
  framesReceivedBits     := 32
  inputQueueCapacity     := none
  stateEncoding          := ⟨0, 1, 2, 3, 4⟩

end Sys2Proof
end

