-- ==== Sys2Proof/Syntax.lean ====
section
/-! DEFINITION. Syntax.lean: the block's operations, one constructor of `Instr` for each row of
spec/opcode_table.json (spec/30_encoding.md R108): the inbound frames `RX.*`, the inbound length forms `LEN.*`, the
outbound length forms `TXLEN.*`, the outbound frames `TX.*` and the sequencer's actions `FSM.*`. -/

namespace Sys2Proof

/-- The masking key of one frame, `k0` first on the wire (R96). -/
structure MaskKey where
  k0 : Byte
  k1 : Byte
  k2 : Byte
  k3 : Byte
  deriving DecidableEq, Repr

/-- An inbound length field in one of its three forms (R93), with the value the form carries. -/
inductive LengthField where
  /-- LEN7: the indicator is the length. -/
  | len7  (v : BitVec 7)
  /-- LEN16: indicator 126, then two bytes. -/
  | len16 (v : BitVec 16)
  /-- LEN64: indicator 127, then eight bytes. -/
  | len64 (v : BitVec 64)
  deriving DecidableEq, Repr

/-- The payload length `L` that a length field announces, as a natural number (R93). -/
def LengthField.toNat : LengthField → Nat
  | .len7 v  => v.toNat
  | .len16 v => v.toNat
  | .len64 v => v.toNat

/-- A masked inbound frame that the decoder reads to its end (R90 to R97): every opcode but PING and PONG. -/
structure RxFrame where
  /-- byte 0 bit 7. -/
  fin  : Bool
  /-- byte 0 bits 6 to 4, not read by the block (R104). -/
  rsv  : BitVec 3
  /-- byte 1 bits 6 to 0 and the extended length. -/
  len  : LengthField
  /-- the four key bytes. -/
  key  : MaskKey
  /-- the payload bytes as they stand on the wire, still masked (R97). -/
  wire : List Byte
  deriving DecidableEq, Repr

/-- What is read of a PING or PONG frame: its two header bytes (R214). -/
structure RxHeader where
  fin : Bool
  rsv : BitVec 3
  /-- byte 1 bits 6 to 0. -/
  psi : BitVec 7
  deriving DecidableEq, Repr

/-- What is read of an unmasked frame: its two header bytes, any opcode (R219). -/
structure UnmaskedHeader where
  fin    : Bool
  rsv    : BitVec 3
  opcode : BitVec 4
  psi    : BitVec 7
  deriving DecidableEq, Repr

/-- The five groups of table rows, each matched on a value of its own (R108): the inbound header number, the inbound
length indicator, the outbound length indicator, the outbound header number, the `state` register. -/
inductive Port where
  | rx
  | len
  | txlen
  | tx
  | fsm
  deriving DecidableEq, Repr

/-- Why bytes presented at a port are no operation of it. -/
inductive DecodeError where
  /-- The bytes end before the operation does. -/
  | truncated
  /-- Bit 7 of a length indicator's code is set: the indicator has 7 bits (R108). -/
  | indicatorTooWide
  /-- An outbound length that is not in its shortest form (R99): the encoder never forms it. -/
  | lengthNotShortest
  /-- Byte 0 is neither 0x82 nor 0x88, or the MASK bit is set: no outbound frame (R100). -/
  | notOutbound
  /-- An echo payload outside 1 to `MAX_MESSAGE_SIZE` bytes (R220). -/
  | echoSize
  /-- A close payload without its two code bytes (R101). -/
  | noCloseCode
  /-- A value of `state` that is none of its five (R22). -/
  | reservedState
  /-- A code of the sequencer's port above bit 3. -/
  | notAState
  deriving DecidableEq, Repr

/-- The block's operations: one constructor for each row of spec/opcode_table.json. -/
inductive Instr where
  /-- RX.OP0 (R216). -/
  | rxOp0 (f : RxFrame)
  /-- RX.TEXT (R211). -/
  | rxText (f : RxFrame)
  /-- RX.BINARY (R212). -/
  | rxBinary (f : RxFrame)
  /-- RX.OP3 (R217). -/
  | rxOp3 (f : RxFrame)
  /-- RX.OP4 (R217). -/
  | rxOp4 (f : RxFrame)
  /-- RX.OP5 (R217). -/
  | rxOp5 (f : RxFrame)
  /-- RX.OP6 (R217). -/
  | rxOp6 (f : RxFrame)
  /-- RX.OP7 (R217). -/
  | rxOp7 (f : RxFrame)
  /-- RX.CLOSE (R213). -/
  | rxClose (f : RxFrame)
  /-- RX.PING (R214). -/
  | rxPing (h : RxHeader)
  /-- RX.PONG (R215). -/
  | rxPong (h : RxHeader)
  /-- RX.OPB (R218). -/
  | rxOpB (f : RxFrame)
  /-- RX.OPC (R218). -/
  | rxOpC (f : RxFrame)
  /-- RX.OPD (R218). -/
  | rxOpD (f : RxFrame)
  /-- RX.OPE (R218). -/
  | rxOpE (f : RxFrame)
  /-- RX.OPF (R218). -/
  | rxOpF (f : RxFrame)
  /-- RX.UNMASKED (R219). -/
  | rxUnmasked (h : UnmaskedHeader)
  /-- LEN.LEN7 (R93). -/
  | lenLen7 (v : BitVec 7)
  /-- LEN.LEN16 (R93). -/
  | lenLen16 (v : BitVec 16)
  /-- LEN.LEN64 (R93). -/
  | lenLen64 (v : BitVec 64)
  /-- TXLEN.LEN7 (R99), with the payload length `n`. -/
  | txlenLen7 (n : BitVec 7)
  /-- TXLEN.LEN16 (R99). -/
  | txlenLen16 (n : BitVec 16)
  /-- TXLEN.LEN64 (R99). -/
  | txlenLen64 (n : BitVec 64)
  /-- TX.ECHO (R220), with the decoded message. -/
  | txEcho (m : List Byte)
  /-- TX.CLOSE (R221), with the close code and the reason. -/
  | txClose (code : Word) (reason : List Byte)
  /-- FSM.AWAIT_HEADER (R121). -/
  | fsmAwaitHeader
  /-- FSM.AWAIT_LENGTH (R122). -/
  | fsmAwaitLength
  /-- FSM.AWAIT_MASK_KEY (R123). -/
  | fsmAwaitMaskKey
  /-- FSM.AWAIT_PAYLOAD (R124). -/
  | fsmAwaitPayload
  /-- FSM.CLOSE_PENDING (R165). -/
  | fsmClosePending
  /-- FSM.COMPLETE (R125). -/
  | fsmComplete
  deriving DecidableEq, Repr

/-- The group of the table a row belongs to. -/
def Instr.port : Instr → Port
  | .rxOp0 _ | .rxText _ | .rxBinary _ | .rxOp3 _ | .rxOp4 _ | .rxOp5 _ | .rxOp6 _ | .rxOp7 _ | .rxClose _
  | .rxPing _ | .rxPong _ | .rxOpB _ | .rxOpC _ | .rxOpD _ | .rxOpE _ | .rxOpF _ | .rxUnmasked _ => .rx
  | .lenLen7 _ | .lenLen16 _ | .lenLen64 _ => .len
  | .txlenLen7 _ | .txlenLen16 _ | .txlenLen64 _ => .txlen
  | .txEcho _ | .txClose _ _ => .tx
  | .fsmAwaitHeader | .fsmAwaitLength | .fsmAwaitMaskKey | .fsmAwaitPayload | .fsmClosePending | .fsmComplete => .fsm

end Sys2Proof
end

