-- ==== Sys2Proof/Decode.lean ====
section
/-! DEFINITION. Decode.lean: byte order and bit fields (spec/20_memory.md R72, spec/00_scope.md R10), the decoder of each
group of the opcode table (spec/30_encoding.md R90 to R108), the encoder written from the same layouts, and the
two host readings of a table word. The five groups match on values of their own (R108), so a code is
read at a port; the codes of the ports without a wire encoding are the model's (assumption log 5). -/

namespace Sys2Proof

/-! ### Byte order and bit fields -/

/-- Byte `i` of a byte string (R9); the callers index below its length. -/
def byteAt (s : List Byte) (i : Nat) : Byte := s.getD i 0

/-- The value of a big-endian byte string: `BE16` on 2 bytes, `BE64` on 8 (R10, R72). -/
def beValue (s : List Byte) : Nat := s.foldl (fun acc b => acc * 256 + b.toNat) 0

/-- `be16(v)`: 2 bytes, most significant first (R10). -/
def be16 (v : BitVec 16) : List Byte := [v.extractLsb' 8 8, v.extractLsb' 0 8]

/-- `be64(v)`: 8 bytes, most significant first (R10). -/
def be64 (v : BitVec 64) : List Byte :=
  [v.extractLsb' 56 8, v.extractLsb' 48 8, v.extractLsb' 40 8, v.extractLsb' 32 8,
   v.extractLsb' 24 8, v.extractLsb' 16 8, v.extractLsb' 8 8, v.extractLsb' 0 8]

/-- FIN: byte 0 bit 7 (R91). -/
def headerFin (b0 : Byte) : Bool := b0.getLsbD 7

/-- RSV: byte 0 bits 6 to 4 (R91). -/
def headerRsv (b0 : Byte) : BitVec 3 := b0.extractLsb' 4 3

/-- Opcode: byte 0 bits 3 to 0 (R91). -/
def headerOpcode (b0 : Byte) : BitVec 4 := b0.extractLsb' 0 4

/-- MASK: byte 1 bit 7 (R92). -/
def headerMask (b1 : Byte) : Bool := b1.getLsbD 7

/-- Payload size indicator: byte 1 bits 6 to 0 (R92). -/
def headerIndicator (b1 : Byte) : BitVec 7 := b1.extractLsb' 0 7

/-- Byte 0 put together from its fields (R91). -/
def headerByte0 (fin : Bool) (rsv : BitVec 3) (opcode : BitVec 4) : Byte := BitVec.ofBool fin ++ rsv ++ opcode

/-- Byte 1 put together from its fields (R92). -/
def headerByte1 (mask : Bool) (psi : BitVec 7) : Byte := BitVec.ofBool mask ++ psi

/-! ### The inbound length field (R93) -/

/-- The payload size indicator of a length field. -/
def lengthIndicator : LengthField → BitVec 7
  | .len7 v  => v
  | .len16 _ => 126
  | .len64 _ => 127

/-- The extended length bytes of a length field. -/
def lengthExtension : LengthField → List Byte
  | .len7 _  => []
  | .len16 v => be16 v
  | .len64 v => be64 v

/-- `L`: the announced payload length, widened with zeros to 64 bits. -/
def lengthValue : LengthField → Length
  | .len7 v  => v.zeroExtend 64
  | .len16 v => v.zeroExtend 64
  | .len64 v => v

/-- How many extended length bytes follow an indicator (R93). -/
def extendedBytes (psi : BitVec 7) : Nat :=
  if psi = 126 then 2 else if psi = 127 then 8 else 0

/-- The length field with indicator `psi` and extended bytes `ext` (R93). -/
def lengthFieldOf (psi : BitVec 7) (ext : List Byte) : LengthField :=
  if psi = 126 then .len16 (BitVec.ofNat 16 (beValue ext))
  else if psi = 127 then .len64 (BitVec.ofNat 64 (beValue ext))
  else .len7 psi

/-- Read a length field whose indicator is known. -/
def decodeLength (psi : BitVec 7) (bs : List Byte) : Except DecodeError (LengthField × List Byte) :=
  if bs.length < extendedBytes psi then .error .truncated
  else .ok (lengthFieldOf psi (bs.take (extendedBytes psi)), bs.drop (extendedBytes psi))

/-! ### The decoders, one a port -/

/-- Read the four key bytes, `k[0]` first (R96). -/
def decodeKey : List Byte → Except DecodeError (MaskKey × List Byte)
  | k0 :: k1 :: k2 :: k3 :: rest => .ok (⟨k0, k1, k2, k3⟩, rest)
  | _ => .error .truncated

/-- Read the part of a masked frame after its two header bytes: extended length, key, payload (R90). -/
def decodeBody (fin : Bool) (rsv : BitVec 3) (psi : BitVec 7) (bs : List Byte) :
    Except DecodeError (RxFrame × List Byte) :=
  match decodeLength psi bs with
  | .error e => .error e
  | .ok (len, afterLength) =>
    match decodeKey afterLength with
    | .error e => .error e
    | .ok (key, afterKey) =>
      if afterKey.length < len.toNat then .error .truncated
      else .ok (⟨fin, rsv, len, key, afterKey.take len.toNat⟩, afterKey.drop len.toNat)

/-- The row of an opcode whose frame is read to its end; none for PING and PONG (R98). -/
def frameRow (opcode : BitVec 4) : Option (RxFrame → Instr) :=
  match opcode.toNat with
  | 0  => some .rxOp0
  | 1  => some .rxText
  | 2  => some .rxBinary
  | 3  => some .rxOp3
  | 4  => some .rxOp4
  | 5  => some .rxOp5
  | 6  => some .rxOp6
  | 7  => some .rxOp7
  | 8  => some .rxClose
  | 11 => some .rxOpB
  | 12 => some .rxOpC
  | 13 => some .rxOpD
  | 14 => some .rxOpE
  | 15 => some .rxOpF
  | _  => none

/-- The row of an opcode of which two bytes are read (R214, R215). -/
def headerRow (opcode : BitVec 4) : RxHeader → Instr :=
  if opcode = 0x9 then .rxPing else .rxPong

/-- An inbound frame. The unmasked row comes before every other (R108, R219); PING and PONG are read from their two
header bytes alone (R214, R215); every other opcode takes the whole frame (R90). -/
def decodeRx : List Byte → Except DecodeError (Instr × List Byte)
  | b0 :: b1 :: rest =>
    if headerMask b1 = false then
      .ok (.rxUnmasked ⟨headerFin b0, headerRsv b0, headerOpcode b0, headerIndicator b1⟩, rest)
    else
      match frameRow (headerOpcode b0) with
      | none => .ok (headerRow (headerOpcode b0) ⟨headerFin b0, headerRsv b0, headerIndicator b1⟩, rest)
      | some row =>
        match decodeBody (headerFin b0) (headerRsv b0) (headerIndicator b1) rest with
        | .error e => .error e
        | .ok (f, after) => .ok (row f, after)
  | _ => .error .truncated

/-- An inbound length form: the 7-bit indicator in one byte, then the extended bytes (R93, R108). -/
def decodeLen : List Byte → Except DecodeError (Instr × List Byte)
  | c :: rest =>
    if headerMask c then .error .indicatorTooWide
    else
      match decodeLength (headerIndicator c) rest with
      | .error e => .error e
      | .ok (.len7 v, after)  => .ok (.lenLen7 v, after)
      | .ok (.len16 v, after) => .ok (.lenLen16 v, after)
      | .ok (.len64 v, after) => .ok (.lenLen64 v, after)
  | [] => .error .truncated

/-- Read an outbound length field, which is always in its shortest form (R99). -/
def decodeShortest (c : Byte) (rest : List Byte) : Except DecodeError (LengthField × List Byte) :=
  if headerMask c then .error .indicatorTooWide
  else
    match decodeLength (headerIndicator c) rest with
    | .error e => .error e
    | .ok (.len7 v, after)  => .ok (.len7 v, after)
    | .ok (.len16 v, after) => if v.toNat < 126 then .error .lengthNotShortest else .ok (.len16 v, after)
    | .ok (.len64 v, after) => if v.toNat < 65536 then .error .lengthNotShortest else .ok (.len64 v, after)

/-- An outbound length form: the 7-bit indicator in one byte, then the extended bytes (R99, R108). -/
def decodeTxlen : List Byte → Except DecodeError (Instr × List Byte)
  | c :: rest =>
    match decodeShortest c rest with
    | .error e => .error e
    | .ok (.len7 v, after)  => .ok (.txlenLen7 v, after)
    | .ok (.len16 v, after) => .ok (.txlenLen16 v, after)
    | .ok (.len64 v, after) => .ok (.txlenLen64 v, after)
  | [] => .error .truncated

/-- The row of an outbound frame with the given byte 0 and payload (R100, R101). -/
def outboundRow (b0 : Byte) (payload : List Byte) : Except DecodeError Instr :=
  if b0 = 0x82 then
    if payload.length = 0 ∨ config.maxMessageSize < payload.length then .error .echoSize else .ok (.txEcho payload)
  else if payload.length < 2 then .error .noCloseCode
  else .ok (.txClose (BitVec.ofNat 16 (beValue (payload.take 2))) (payload.drop 2))

/-- An outbound frame: byte 0 is 0x82 or 0x88, the MASK bit is 0, the length is in its shortest form (R99, R100). -/
def decodeTx : List Byte → Except DecodeError (Instr × List Byte)
  | b0 :: b1 :: rest =>
    if (b0 ≠ 0x82 ∧ b0 ≠ 0x88) ∨ headerMask b1 = true then .error .notOutbound
    else
      match decodeShortest b1 rest with
      | .error e => .error e
      | .ok (len, after) =>
        if after.length < len.toNat then .error .truncated
        else
          match outboundRow b0 (after.take len.toNat) with
          | .error e => .error e
          | .ok i => .ok (i, after.drop len.toNat)
  | _ => .error .truncated

/-- An action of the sequencer. Bits 2 to 0 of the code are the encoding of `state` (R22); bit 3 is set for the COMPLETE
row, which repeats the match of AWAIT_PAYLOAD under its qualifier (R108; log 5). -/
def decodeFsm : List Byte → Except DecodeError (Instr × List Byte)
  | c :: rest =>
    match c.toNat with
    | 0  => .ok (.fsmAwaitHeader, rest)
    | 1  => .ok (.fsmAwaitLength, rest)
    | 2  => .ok (.fsmAwaitMaskKey, rest)
    | 3  => .ok (.fsmAwaitPayload, rest)
    | 4  => .ok (.fsmClosePending, rest)
    | 11 => .ok (.fsmComplete, rest)
    | n  => if n < 8 then .error .reservedState else .error .notAState
  | [] => .error .truncated

/-- The decoder: the operation at the front of the bytes presented at a port, and the bytes after it. -/
def decode : Port → List Byte → Except DecodeError (Instr × List Byte)
  | .rx,    bs => decodeRx bs
  | .len,   bs => decodeLen bs
  | .txlen, bs => decodeTxlen bs
  | .tx,    bs => decodeTx bs
  | .fsm,   bs => decodeFsm bs

/-! ### The encoder, from the same layouts -/

/-- The wire bytes of a masked frame with the given opcode (R90 to R97). -/
def encodeFrameRow (opcode : BitVec 4) (f : RxFrame) : List Byte :=
  headerByte0 f.fin f.rsv opcode :: headerByte1 true (lengthIndicator f.len) ::
    (lengthExtension f.len ++ [f.key.k0, f.key.k1, f.key.k2, f.key.k3] ++ f.wire)

/-- The header bytes of a PING or PONG frame. -/
def encodeHeaderRow (opcode : BitVec 4) (h : RxHeader) : List Byte :=
  [headerByte0 h.fin h.rsv opcode, headerByte1 true h.psi]

/-- The outbound length field for a payload of `n` bytes, in the shortest form (R99). -/
def shortestLength (n : Nat) : LengthField :=
  if n ≤ 125 then .len7 (BitVec.ofNat 7 n)
  else if n ≤ 65535 then .len16 (BitVec.ofNat 16 n)
  else .len64 (BitVec.ofNat 64 n)

/-- The bytes of an outbound length field: byte 1, with the MASK bit 0, and the extended length (R99). -/
def encodeLengthField (len : LengthField) : List Byte :=
  headerByte1 false (lengthIndicator len) :: lengthExtension len

/-- The code of an operation at its port. -/
def encode : Instr → List Byte
  | .rxOp0 f    => encodeFrameRow 0x0 f
  | .rxText f   => encodeFrameRow 0x1 f
  | .rxBinary f => encodeFrameRow 0x2 f
  | .rxOp3 f    => encodeFrameRow 0x3 f
  | .rxOp4 f    => encodeFrameRow 0x4 f
  | .rxOp5 f    => encodeFrameRow 0x5 f
  | .rxOp6 f    => encodeFrameRow 0x6 f
  | .rxOp7 f    => encodeFrameRow 0x7 f
  | .rxClose f  => encodeFrameRow 0x8 f
  | .rxPing h   => encodeHeaderRow 0x9 h
  | .rxPong h   => encodeHeaderRow 0xA h
  | .rxOpB f    => encodeFrameRow 0xB f
  | .rxOpC f    => encodeFrameRow 0xC f
  | .rxOpD f    => encodeFrameRow 0xD f
  | .rxOpE f    => encodeFrameRow 0xE f
  | .rxOpF f    => encodeFrameRow 0xF f
  | .rxUnmasked h => [headerByte0 h.fin h.rsv h.opcode, headerByte1 false h.psi]
  | .lenLen7 v  => encodeLengthField (.len7 v)
  | .lenLen16 v => encodeLengthField (.len16 v)
  | .lenLen64 v => encodeLengthField (.len64 v)
  | .txlenLen7 n  => encodeLengthField (.len7 n)
  | .txlenLen16 n => encodeLengthField (.len16 n)
  | .txlenLen64 n => encodeLengthField (.len64 n)
  | .txEcho m => 0x82 :: (encodeLengthField (shortestLength m.length) ++ m)
  | .txClose code reason => 0x88 :: (encodeLengthField (shortestLength (reason.length + 2)) ++ be16 code ++ reason)
  | .fsmAwaitHeader  => [0]
  | .fsmAwaitLength  => [1]
  | .fsmAwaitMaskKey => [2]
  | .fsmAwaitPayload => [3]
  | .fsmClosePending => [4]
  | .fsmComplete     => [11]

/-! ### A word of the opcode table -/

/-- Zero operand bytes behind byte 1, as many as an operation with that indicator and zero operands can take: up to 8 bytes of
extended length and 4 of key, and the payload that a LEN7 indicator announces. -/
def zeroOperands (b1 : Byte) : List Byte :=
  List.replicate (12 + if (headerIndicator b1).toNat ≤ 125 then (headerIndicator b1).toNat else 0) 0

/-- Byte `i` of a number, counted from its least significant byte. -/
def byteOf (w i : Nat) : Byte := BitVec.ofNat 8 (w / 256 ^ i)

/-- Byte 1 of the shortest frame of an outbound row when the table word leaves the length too small for the row's operands: 1
payload byte for an echo (R220), 2 for a close (R101). The encoder computes these bits from the payload (R99), so
they are no operand (log 6). -/
def outboundByte1 (b0 b1 : Byte) : Byte :=
  if b0 = 0x82 ∧ b1 = 0 then 1 else if b0 = 0x88 ∧ b1.toNat < 2 then 2 else b1

/-- The port and the bytes of a word numbered as the opcode table numbers it. A word of more than 8 bits is the header
number `byte0 * 256 + byte1`, at the outbound port when it has the pattern of R100 and at the inbound port otherwise; a
word of up to 8 bits is a value of `state` when it is below 5 and a length indicator otherwise (log 5). Bits above
16 are further big-endian 16-bit words. -/
def tableCode (nbits w : Nat) : Port × List Byte :=
  if nbits ≤ 8 then
    if w < 5 then (.fsm, [byteOf w 0]) else (.len, byteOf w 0 :: zeroOperands (byteOf w 0))
  else
    let b0 := byteOf w 1
    let b1 := byteOf w 0
    let more := (List.range ((nbits - 1) / 16)).flatMap fun k => [byteOf w (2 * k + 3), byteOf w (2 * k + 2)]
    if (b0 = 0x82 ∨ b0 = 0x88) ∧ headerMask b1 = false then
      (.tx, b0 :: outboundByte1 b0 b1 :: (more ++ zeroOperands (outboundByte1 b0 b1)))
    else (.rx, b0 :: b1 :: (more ++ zeroOperands b1))

/-- The instruction the decoder reads from a table word. -/
def decodeTableWord (nbits w : Nat) : Option Instr :=
  match decode (tableCode nbits w).1 (tableCode nbits w).2 with
  | .ok (i, _) => some i
  | .error _   => none

end Sys2Proof
end

