-- ==== Sys2Proof/Machine/State.lean ====
section
/-! DEFINITION. Machine/State.lean: the state of one instance (spec/10_state.md R20), the reasons a step can stop, and the
state at session creation (R41, spec/70_reset_and_hazards.md R281). One instance is one connection session; instances
share nothing (R81, R259). -/

namespace Sys2Proof.Machine

/-- The values of the sequencer register `state` (R21). COMPLETE is no value of it. -/
inductive DecoderState where
  | awaitHeader
  | awaitLength
  | awaitMaskKey
  | awaitPayload
  | closePending
  deriving DecidableEq, Repr

/-- An event on the output stream (R35, R70, R71). -/
inductive OutputEvent where
  /-- `write(bytes)`: one transfer to the transport. -/
  | write (bytes : List Byte)
  /-- `end()`: the connection is to be closed. -/
  | endConnection
  deriving DecidableEq, Repr

/-- An input event of the block (spec/60_exceptions.md R254, R255; there is no other, R256). -/
inductive InputEvent where
  /-- `on_bytes_received(chunk)`. -/
  | bytesReceived (chunk : List Byte)
  /-- `on_stream_closed()`. -/
  | streamClosed
  deriving DecidableEq, Repr

/-- Why the machine stops with a fault. -/
inductive Fault where
  /-- BufferUnderrun (R64, R248, D16): an action consumed more bytes than are buffered. Raised by `takeBytes` in the four
  AWAIT actions. Safe: the guard of R67 makes it unreachable while the queue's count is right (INV3). -/
  | bufferUnderrun
  deriving DecidableEq, Repr

/-- Why a step has no meaning to run. -/
inductive Refusal where
  /-- Raised by an arm of `exec` whose instruction has no meaning yet; no arm is left. Safe: nothing runs. -/
  | notModelled (mnemonic : String)
  /-- Raised by `step` when the bytes at the model's own operation port are no operation of the table (log 4). Safe: the
  port is empty in every session, and nothing runs. -/
  | undecodedOperation (reason : DecodeError)
  deriving DecidableEq, Repr

/-- The state of one instance: the fourteen items of R20, then four fields of the model's own (assumption log 2, 3, 4, 7). -/
structure State where
  /-- `state`, the sequencer (R21). -/
  state                : DecoderState
  /-- `fin` (R24). -/
  fin                  : Bool
  /-- `opcode` (R25). -/
  opcode               : BitVec 4
  /-- `masked` (R26). -/
  masked               : Bool
  /-- `payload_size_indicator` (R27). -/
  payloadSizeIndicator : BitVec 7
  /-- `frame_payload_length` (R28). -/
  framePayloadLength   : Length
  /-- `total_payload_length` (R29). -/
  totalPayloadLength   : Length
  /-- `mask_key[0]` to `mask_key[3]` (R30). -/
  maskKey              : MaskKey
  /-- `fragments`, oldest first (R33). -/
  fragments            : List (List Byte)
  /-- `frames_received` (R31). -/
  framesReceived       : BitVec 32
  /-- `pending_chunks`, kept as one byte string (R34, R38). -/
  pendingChunks        : List Byte
  /-- `buffered_length` (R34). -/
  bufferedLength       : Nat
  /-- `ended` (R32). -/
  ended                : Bool
  /-- The output stream, oldest event first (R35). -/
  output               : List OutputEvent
  /-- The model's own: the input events that have not happened yet, next one first (log 2). -/
  inputs               : List InputEvent
  /-- The model's own: the dispatch loop of R120 is running (log 3). -/
  inTransaction        : Bool
  /-- The model's own: the length field the encoder formed last, a combinational output that nothing reads (log 7). -/
  encoderLength        : List Byte
  /-- The model's own: an operation presented directly at a port, empty in every session (log 4). -/
  request              : Option (Port × List Byte)
  deriving DecidableEq, Repr

/-- The all-zero mask key (R41). -/
def zeroKey : MaskKey := ⟨0, 0, 0, 0⟩

/-- Session creation (R41 first column, R281). A reset input, where there is one, does the same (R284). -/
def State.reset : State where
  state                := .awaitHeader
  fin                  := false
  opcode               := 0
  masked               := false
  payloadSizeIndicator := 0
  framePayloadLength   := 0
  totalPayloadLength   := 0
  maskKey              := zeroKey
  fragments            := []
  framesReceived       := 0
  pendingChunks        := []
  bufferedLength       := 0
  ended                := false
  output               := []
  inputs               := []
  inTransaction        := false
  encoderLength        := []
  request              := none

/-- The canonical form of the block's stores (it has no addressable memory, R60, R76): the queue's count is its length (R40
INV3) and no stored fragment is empty (R40 INV4). -/
def Memory.wf (s : State) : Bool :=
  s.bufferedLength == s.pendingChunks.length && s.fragments.all (fun u => !u.isEmpty)

end Sys2Proof.Machine
end

