-- ==== Sys2Proof/Machine/Operands.lean ====
section
/-! DEFINITION. Machine/Operands.lean: the values the actions compute from bytes: the masking codec
(spec/43_masking_codec.md), the inbound length (spec/30_encoding.md R93), the size-cap test
(spec/40_decoder_states.md R122), the close payload (R101) and the frame encoder (spec/44_frame_encoder.md). All are
functions of their operands alone. -/

namespace Sys2Proof.Machine

/-! ### The masking codec -/

/-- `mask_key[i mod 4]` (R30, R180). -/
def keyByte (key : MaskKey) (i : Nat) : Byte :=
  match i % 4 with
  | 0 => key.k0
  | 1 => key.k1
  | 2 => key.k2
  | _ => key.k3

/-- The codec from index `i` of a frame's payload on. -/
def unmaskFrom (key : MaskKey) : Nat → List Byte → List Byte
  | _, []      => []
  | i, b :: bs => (b ^^^ keyByte key i) :: unmaskFrom key (i + 1) bs

/-- `Unmask(p, k)` (R180): the index starts at 0 for each frame (R182). -/
def unmask (p : List Byte) (key : MaskKey) : List Byte := unmaskFrom key 0 p

/-- The four key bytes as they come off the queue (R123). -/
def keyOfBytes (k : List Byte) : MaskKey := ⟨byteAt k 0, byteAt k 1, byteAt k 2, byteAt k 3⟩

/-! ### Lengths -/

/-- `L` from the size indicator and the extended bytes: LEN7, LEN16 or LEN64 (R93). -/
def inboundLength (psi : BitVec 7) (ext : List Byte) : Length :=
  if psi.toNat ≤ 125 then psi.zeroExtend 64
  else if psi = 126 then (BitVec.ofNat 16 (beValue ext)).zeroExtend 64
  else BitVec.ofNat 64 (beValue ext)

/-- The size-cap test on natural numbers, without wrap-around (R122, D10): does total + `L` exceed `MAX_MESSAGE_SIZE`? -/
def overCap (total len : Length) : Bool := config.maxMessageSize < total.toNat + len.toNat

/-! ### The close payload -/

/-- The peer's close code, `BE16` of the first two bytes (R101, R165). -/
def closeCode (payload : List Byte) : Word := BitVec.ofNat 16 (beValue (payload.take 2))

/-- The peer's close reason, the rest (R101, R171). No rule reads it. -/
def closeReason (payload : List Byte) : List Byte := payload.drop 2

/-! ### The frame encoder -/

/-- Byte 1 and extended length of the short form (R99 row 1). -/
def txLength7 (n : BitVec 7) : List Byte := [headerByte1 false n]

/-- Byte 1 and extended length of the 16-bit form (R99 row 2). -/
def txLength16 (n : BitVec 16) : List Byte := headerByte1 false 126 :: be16 n

/-- Byte 1 and extended length of the 64-bit form (R99 row 3). -/
def txLength64 (n : BitVec 64) : List Byte := headerByte1 false 127 :: be64 n

/-- Byte 1 and extended length for a payload of `n` bytes, the form chosen from `n` (R99, R190). -/
def txLengthField (n : Nat) : List Byte :=
  if n ≤ 125 then txLength7 (BitVec.ofNat 7 n)
  else if n ≤ 65535 then txLength16 (BitVec.ofNat 16 n)
  else txLength64 (BitVec.ofNat 64 n)

/-- `EncodeFrame(op, v)` (R190): FIN = 1, RSV = 000, no mask key, payload as it is. -/
def encodeFrame (op : BitVec 4) (v : List Byte) : List Byte :=
  headerByte0 true 0 op :: (txLengthField v.length ++ v)

/-- The close payload `be16(code) ++ reason` (R101). -/
def closePayload (code : Word) (reason : List Byte) : List Byte := be16 code ++ reason

/-- `EncodeClose(code, reason)` (R194). -/
def encodeClose (code : Word) (reason : List Byte) : List Byte := encodeFrame 0x8 (closePayload code reason)

/-! ### The encoding of the sequencer's register -/

/-- The encoding of `state`, in bits 2 to 0 of a byte (R22, R7). -/
def stateCode : DecoderState → Byte
  | .awaitHeader  => config.stateEncoding.awaitHeader.zeroExtend 8
  | .awaitLength  => config.stateEncoding.awaitLength.zeroExtend 8
  | .awaitMaskKey => config.stateEncoding.awaitMaskKey.zeroExtend 8
  | .awaitPayload => config.stateEncoding.awaitPayload.zeroExtend 8
  | .closePending => config.stateEncoding.closePending.zeroExtend 8

/-- The value of `state` with a given encoding; 5 to 7 are none (R22). -/
def stateOfCode (c : Byte) : Option DecoderState :=
  [.awaitHeader, .awaitLength, .awaitMaskKey, .awaitPayload, .closePending].find? (fun st => stateCode st == c)

end Sys2Proof.Machine
end

