-- ==== Sys2Proof/Machine/Flags.lean ====
section
/-! DEFINITION. Machine/Flags.lean: the block's one-bit state (spec/10_state.md R37). It has no condition codes: `fin` and
`masked` are copied from a frame header (R24, R26) and `ended` is the one status bit (R32, R36). -/

namespace Sys2Proof.Machine

/-- Write the four header registers from their values: `fin`, `opcode`, `masked`, `payload_size_indicator` (R42). -/
def writeHeader (fin : Bool) (opcode : BitVec 4) (masked : Bool) (psi : BitVec 7) (s : State) : State :=
  { s with fin := fin, opcode := opcode, masked := masked, payloadSizeIndicator := psi }

/-- Write the four header registers from the two header bytes (R91, R92, R121). Byte 0 bits 6 to 4 are not read (R104). -/
def latchHeader (b : List Byte) (s : State) : State :=
  writeHeader (headerFin (byteAt b 0)) (headerOpcode (byteAt b 0)) (headerMask (byteAt b 1))
    (headerIndicator (byteAt b 1)) s

/-- Set `ended`; the dispatch loop stops with it (R32, R120). It is never cleared within a session. -/
def setEnded (s : State) : State := { s with ended := true, inTransaction := false }

/-- Is the opcode PING or PONG (R121)? -/
def isPingPong (opcode : BitVec 4) : Bool := opcode == 0x9 || opcode == 0xA

/-- Is the opcode CLOSE (R124)? -/
def isClose (opcode : BitVec 4) : Bool := opcode == 0x8

end Sys2Proof.Machine
end

