-- ==== Sys2Proof/Machine/Ops.lean ====
section
/-! DEFINITION. Machine/Ops.lean: the named operations over the stores and registers: the input queue and the output
stream (spec/20_memory.md), the fragment reassembler (spec/41_fragment_reassembler.md), the resets
(spec/70_reset_and_hazards.md), and taking a fatal condition, `raise Close` (spec/60_exceptions.md R250). There is
no return from it (R252). -/

namespace Sys2Proof.Machine

/-- What an operation of the block answers. -/
abbrev Result := Host.Outcome State Fault Refusal

/-! ### The input queue -/

/-- `InQ.append(c)` (R62). -/
def appendInput (chunk : List Byte) (s : State) : State :=
  { s with pendingChunks := s.pendingChunks ++ chunk, bufferedLength := s.bufferedLength + chunk.length }

/-- `InQ.available()` (R63). -/
def available (s : State) : Nat := s.bufferedLength

/-- `InQ.consume(n)` (R64); none stands for BufferUnderrun. The second test differs from the first only in a state that
breaks INV3 (log 11). -/
def consume (n : Nat) (s : State) : Option (List Byte × State) :=
  if s.bufferedLength < n ∨ s.pendingChunks.length < n then none
  else some (s.pendingChunks.take n,
    { s with pendingChunks := s.pendingChunks.drop n, bufferedLength := s.bufferedLength - n })

/-- `InQ.peek(n)` (R65), under the condition of `consume`. No action needs it. -/
def peek (n : Nat) (s : State) : Option (List Byte) := (consume n s).map Prod.fst

/-- `InQ.clear()` (R66). -/
def clearInput (s : State) : State := { s with pendingChunks := [], bufferedLength := 0 }

/-- Consume `n` bytes and go on with them, or stop with BufferUnderrun (R64, R248). -/
def takeBytes (n : Nat) (s : State) (k : List Byte → State → Result) : Result :=
  match consume n s with
  | none => .fault .bufferUnderrun
  | some (b, s') => k b s'

/-- SUSPEND (R11): the dispatch loop returns; nothing of R20 changes. -/
def suspend (s : State) : Result := .next { s with inTransaction := false }

/-- The guard discipline of R67: with fewer than `n` bytes buffered, suspend and consume nothing; otherwise consume `n`. -/
def awaitBytes (n : Nat) (s : State) (k : List Byte → State → Result) : Result :=
  if available s < n then suspend s else takeBytes n s k

/-- Nothing happens once `ended` is 1 (R32; log 9). -/
def whenLive (s : State) (r : Result) : Result := if s.ended then .next s else r

/-! ### The fragment reassembler -/

/-- `fragments.append(u)` (R150). -/
def appendFragment (u : List Byte) (s : State) : State := { s with fragments := s.fragments ++ [u] }

/-- `concat(fragments)` (R152). -/
def concatFragments (s : State) : List Byte := s.fragments.flatten

/-- `fragments[0]`, where there is one (R153). -/
def firstFragment (s : State) : Option (List Byte) := s.fragments.head?

/-- `fragments.clear()` (R154). -/
def clearFragments (s : State) : State := { s with fragments := [] }

/-! ### The output stream -/

/-- `write(v)` (R70). -/
def writeOut (v : List Byte) (s : State) : State := { s with output := s.output ++ [.write v] }

/-- `end()` (R71): `ended` is set with it. -/
def endConnection (s : State) : State := setEnded { s with output := s.output ++ [.endConnection] }

/-- The encoder's length field for a payload of `n` bytes stands on its output (R99; log 7). -/
def formLength (field : List Byte) (s : State) : State := { s with encoderLength := field }

/-- Encode a frame and hand it over as one `write` (R190, R196). -/
def writeFrame (op : BitVec 4) (v : List Byte) (s : State) : State :=
  writeOut (encodeFrame op v) (formLength (txLengthField v.length) s)

/-- Echo reply (R193). -/
def sendEcho (m : List Byte) (s : State) : State := writeFrame 0x2 m s

/-- `SendClose` (R195): the close frame, then `end()`. -/
def sendClose (code : Word) (reason : List Byte) (s : State) : State :=
  endConnection (writeFrame 0x8 (closePayload code reason) s)

/-! ### The resets -/

/-- PerMessageReset (R282). -/
def perMessageReset (s : State) : State :=
  clearFragments
    { s with
      state := .awaitHeader
      fin := false
      opcode := 0
      masked := false
      payloadSizeIndicator := 0
      framePayloadLength := 0
      totalPayloadLength := 0
      maskKey := zeroKey
      framesReceived := 0 }

/-- FullReset (R283). -/
def fullReset (s : State) : State := clearInput (perMessageReset s)

/-! ### Taking a fatal condition, and the other endings of a session -/

/-- `raise Close(code, reason)`, the error and reset protocol (R250): write, end, FullReset, `ended` 1; the action and
the dispatch loop stop. -/
def raiseClose (code : Word) (reason : List Byte) (s : State) : State :=
  setEnded (fullReset (sendClose code reason s))

/-- UNMASKED (R241). -/
def raiseUnmasked (s : State) : State := raiseClose config.codeUnmasked config.reasonUnmasked s

/-- PINGPONG (R242). -/
def raisePingPong (s : State) : State := raiseClose config.codePingPong config.reasonPingPong s

/-- TOO_BIG (R243). -/
def raiseTooBig (s : State) : State := raiseClose config.codeTooBig config.reasonTooBig s

/-- EMPTY (R244). -/
def raiseEmpty (s : State) : State := raiseClose config.codeEmpty config.reasonEmpty s

/-- NO_STATUS (R245). -/
def raiseNoStatus (s : State) : State := raiseClose config.codeNoStatus config.reasonNoStatus s

/-- The peer's 1001 (R169, R247): `end()` without a reply, FullReset, `ended` 1. -/
def goAway (s : State) : State := setEnded (fullReset (endConnection s))

/-- `on_stream_closed()` (R255): FullReset and `ended` 1, no output; nothing when already ended. -/
def streamClosed (s : State) : State := if s.ended then s else setEnded (fullReset s)

/-- The arrival of `on_bytes_received(chunk)` (R120): the whole chunk is appended, then the dispatch loop runs; ignored
when ended. -/
def bytesReceived (chunk : List Byte) (s : State) : State :=
  if s.ended then s else { appendInput chunk s with inTransaction := true }

/-! ### Work shared by the actions and the whole frames -/

/-- The end of a message, COMPLETE (R125): echo the concatenation, then PerMessageReset. -/
def completeMessage (s : State) : State := perMessageReset (sendEcho (concatFragments s) s)

/-- What AWAIT_LENGTH does once `L` is known (R122): store it, test the cap, add it to the total. -/
def resolveLength (len : Length) (s : State) : State :=
  let s1 := { s with framePayloadLength := len }
  if overCap s.totalPayloadLength len then raiseTooBig s1
  else { s1 with totalPayloadLength := s.totalPayloadLength + len, state := .awaitMaskKey }

/-- Store a frame's unmasked payload, unless it is empty (R124, R151), and count the frame (R31). -/
def storePayload (u : List Byte) (s : State) : State :=
  let s1 := if u = [] then s else appendFragment u s
  { s1 with framesReceived := s1.framesReceived + 1 }

/-- The close handler (R165 to R170), which reads `fragments[0]`. -/
def handleClose (s : State) : State :=
  match firstFragment s with
  | none => raiseNoStatus s
  | some c =>
    if c.length < 2 then raiseNoStatus s
    else if closeCode c = config.codeGoingAway then goAway s
    else raiseClose (closeCode c) config.reasonFarewell s

/-- How many buffered bytes the action of the current `state` needs (R127). -/
def bytesNeeded (s : State) : Nat :=
  match s.state with
  | .awaitHeader  => 2
  | .awaitLength  => extendedBytes s.payloadSizeIndicator
  | .awaitMaskKey => 4
  | .awaitPayload => s.framePayloadLength.toNat
  | .closePending => 0

end Sys2Proof.Machine
end

