-- ==== Sys2Proof/Machine/Inbound.lean ====
section
/-! DEFINITION. Machine/Inbound.lean: the meaning of each inbound frame as a whole (spec/45_frame_types.md R210 to R219).
The frame is the next frame of the stream, its bytes have been taken from the front, and its fields are the operands
(log 10). R210 gives the frames' rules in AWAIT_HEADER; that they run alike in every other value of `state`, which only the
model's own port can bring about, is the model's choice (DESIGN CHOICE, log 17). -/

namespace Sys2Proof.Machine

/-- What every masked frame but PING and PONG does up to its payload: header registers, length and key; the cap test
comes before the key (R210, R211, R213). `k` is what the frame then does. `state` is not read: outside AWAIT_HEADER, of
which R210 does not speak, the frame runs as in it (DESIGN CHOICE, log 17). -/
def receiveFrame (opcode : BitVec 4) (f : RxFrame) (k : State → State) (s : State) : State :=
  let s1 := writeHeader f.fin opcode true (lengthIndicator f.len) s
  let s2 := { s1 with framePayloadLength := lengthValue f.len }
  if overCap s.totalPayloadLength (lengthValue f.len) then raiseTooBig s2
  else k { s2 with totalPayloadLength := s.totalPayloadLength + lengthValue f.len, maskKey := f.key }

/-- A data frame (R211): EMPTY when it has no payload; otherwise its payload is stored, and a final frame ends the
message. -/
def dataFrame (opcode : BitVec 4) (f : RxFrame) (s : State) : State :=
  receiveFrame opcode f (fun s1 =>
    if lengthValue f.len = 0 then raiseEmpty s1
    else
      let s2 := storePayload (unmask f.wire f.key) s1
      if f.fin then completeMessage s2 else { s2 with state := .awaitHeader }) s

/-- A CLOSE frame (R213): its payload is stored unless empty, then the close handler runs. FIN is not read. -/
def closeFrame (f : RxFrame) (s : State) : State :=
  receiveFrame 0x8 f (fun s1 => handleClose (storePayload (unmask f.wire f.key) s1)) s

/-- A PING or PONG frame, judged on its header (R214, R215), in any `state` (log 17). -/
def controlHeader (opcode : BitVec 4) (h : RxHeader) (s : State) : State :=
  raisePingPong (writeHeader h.fin opcode true h.psi s)

/-- RX.OP0 (R216). -/
def execRxOp0 (f : RxFrame) (s : State) : Result := whenLive s (.next (dataFrame 0x0 f s))

/-- RX.TEXT (R211). -/
def execRxText (f : RxFrame) (s : State) : Result := whenLive s (.next (dataFrame 0x1 f s))

/-- RX.BINARY (R212). -/
def execRxBinary (f : RxFrame) (s : State) : Result := whenLive s (.next (dataFrame 0x2 f s))

/-- RX.OP3 (R217). -/
def execRxOp3 (f : RxFrame) (s : State) : Result := whenLive s (.next (dataFrame 0x3 f s))

/-- RX.OP4 (R217). -/
def execRxOp4 (f : RxFrame) (s : State) : Result := whenLive s (.next (dataFrame 0x4 f s))

/-- RX.OP5 (R217). -/
def execRxOp5 (f : RxFrame) (s : State) : Result := whenLive s (.next (dataFrame 0x5 f s))

/-- RX.OP6 (R217). -/
def execRxOp6 (f : RxFrame) (s : State) : Result := whenLive s (.next (dataFrame 0x6 f s))

/-- RX.OP7 (R217). -/
def execRxOp7 (f : RxFrame) (s : State) : Result := whenLive s (.next (dataFrame 0x7 f s))

/-- RX.CLOSE (R213). -/
def execRxClose (f : RxFrame) (s : State) : Result := whenLive s (.next (closeFrame f s))

/-- RX.PING (R214). -/
def execRxPing (h : RxHeader) (s : State) : Result := whenLive s (.next (controlHeader 0x9 h s))

/-- RX.PONG (R215). -/
def execRxPong (h : RxHeader) (s : State) : Result := whenLive s (.next (controlHeader 0xA h s))

/-- RX.OPB (R218). -/
def execRxOpB (f : RxFrame) (s : State) : Result := whenLive s (.next (dataFrame 0xB f s))

/-- RX.OPC (R218). -/
def execRxOpC (f : RxFrame) (s : State) : Result := whenLive s (.next (dataFrame 0xC f s))

/-- RX.OPD (R218). -/
def execRxOpD (f : RxFrame) (s : State) : Result := whenLive s (.next (dataFrame 0xD f s))

/-- RX.OPE (R218). -/
def execRxOpE (f : RxFrame) (s : State) : Result := whenLive s (.next (dataFrame 0xE f s))

/-- RX.OPF (R218). -/
def execRxOpF (f : RxFrame) (s : State) : Result := whenLive s (.next (dataFrame 0xF f s))

/-- RX.UNMASKED (R219): before any other test, whatever the opcode, in any `state` (log 17). -/
def execRxUnmasked (h : UnmaskedHeader) (s : State) : Result :=
  whenLive s (.next (raiseUnmasked (writeHeader h.fin h.opcode false h.psi s)))

end Sys2Proof.Machine
end

