-- ==== Sys2Proof/Machine/LengthForms.lean ====
section
/-! DEFINITION. Machine/LengthForms.lean: the meaning of the three inbound length forms (spec/30_encoding.md R93): the arm
of AWAIT_LENGTH that the form selects, its extended bytes taken from the stream (spec/40_decoder_states.md R122); and
of the three outbound forms (R99): the length field stands on the encoder's output (log 7). -/

namespace Sys2Proof.Machine

/-- LEN.LEN7: `L` is the indicator, widened with zeros. -/
def execLenLen7 (v : BitVec 7) (s : State) : Result := whenLive s (.next (resolveLength (v.zeroExtend 64) s))

/-- LEN.LEN16: `L` is the 16-bit extended length, widened with zeros. -/
def execLenLen16 (v : BitVec 16) (s : State) : Result := whenLive s (.next (resolveLength (v.zeroExtend 64) s))

/-- LEN.LEN64: `L` is the 64-bit extended length. -/
def execLenLen64 (v : BitVec 64) (s : State) : Result := whenLive s (.next (resolveLength v s))

/-- TXLEN.LEN7: byte 1 is `n`. -/
def execTxlenLen7 (n : BitVec 7) (s : State) : Result := whenLive s (.next (formLength (txLength7 n) s))

/-- TXLEN.LEN16: byte 1 is 126, then `be16(n)`. -/
def execTxlenLen16 (n : BitVec 16) (s : State) : Result := whenLive s (.next (formLength (txLength16 n) s))

/-- TXLEN.LEN64: byte 1 is 127, then `be64(n)`. -/
def execTxlenLen64 (n : BitVec 64) (s : State) : Result := whenLive s (.next (formLength (txLength64 n) s))

end Sys2Proof.Machine
end

