-- ==== Sys2Proof/Machine/Outbound.lean ====
section
/-! DEFINITION. Machine/Outbound.lean: the meaning of the two outbound frames (spec/45_frame_types.md R220, R221). -/

namespace Sys2Proof.Machine

/-- TX.ECHO (R193, R220): one `write` of the BINARY frame; the connection goes on. The spec sends it only from COMPLETE; by itself at
the model's own port it sends the message of its operand in every live state (DESIGN CHOICE, log 19). -/
def execTxEcho (m : List Byte) (s : State) : Result := whenLive s (.next (sendEcho m s))

/-- TX.CLOSE (R195, R221): the close frame, then `end()`. It is sent only by the error and reset protocol, so the reset
that follows every `end()` follows here too (R250, D14; log 8). -/
def execTxClose (code : Word) (reason : List Byte) (s : State) : Result :=
  whenLive s (.next (raiseClose code reason s))

end Sys2Proof.Machine
end

