-- ==== Sys2Proof/Machine/Sequencer.lean ====
section
/-! DEFINITION. Machine/Sequencer.lean: the meaning of the sequencer's actions, one micro-step each
(spec/40_decoder_states.md R121 to R125, spec/42_close_handler.md R165). -/

namespace Sys2Proof.Machine

/-- FSM.AWAIT_HEADER, ActHeader (R121). The mask test comes before the opcode test (R249). -/
def execFsmAwaitHeader (s : State) : Result :=
  whenLive s (awaitBytes 2 s fun b s1 =>
    let s2 := latchHeader b s1
    if s2.masked = false then .next (raiseUnmasked s2)
    else if isPingPong s2.opcode then .next (raisePingPong s2)
    else .next { s2 with state := .awaitLength })

/-- FSM.AWAIT_LENGTH, ActLength (R122). With an indicator of 125 or less it needs no byte. -/
def execFsmAwaitLength (s : State) : Result :=
  whenLive s (awaitBytes (extendedBytes s.payloadSizeIndicator) s fun ext s1 =>
    .next (resolveLength (inboundLength s.payloadSizeIndicator ext) s1))

/-- FSM.AWAIT_MASK_KEY, ActMaskKey (R123). -/
def execFsmAwaitMaskKey (s : State) : Result :=
  whenLive s (awaitBytes 4 s fun k s1 =>
    .next { s1 with maskKey := keyOfBytes k, state := .awaitPayload })

/-- FSM.AWAIT_PAYLOAD, ActPayload (R124). The four branches are tested in the order shown there. -/
def execFsmAwaitPayload (s : State) : Result :=
  whenLive s (awaitBytes s.framePayloadLength.toNat s fun p s1 =>
    let s2 := storePayload (unmask p s.maskKey) s1
    if isClose s.opcode then .next { s2 with state := .closePending }
    else if s.framePayloadLength = 0 then .next (raiseEmpty s2)
    else if s.fin then .next (completeMessage s2)
    else .next { s2 with state := .awaitHeader })

/-- FSM.CLOSE_PENDING, ActClosePending (R165). It never suspends and every path ends the session. -/
def execFsmClosePending (s : State) : Result := whenLive s (.next (handleClose s))

/-- FSM.COMPLETE (R125): the work of AWAIT_PAYLOAD at the end of a message, taken by itself. Its qualifier (opcode not 0x8, length
above 0, FIN = 1; R108) is not tested: where it fails, which only the model's own port can bring about, COMPLETE runs
all the same, with no fragments as an empty echo (DESIGN CHOICE, log 19). -/
def execFsmComplete (s : State) : Result := whenLive s (.next (completeMessage s))

end Sys2Proof.Machine
end

