-- ==== Sys2Proof/Machine/Dispatch.lean ====
section
/-! DEFINITION. Machine/Dispatch.lean: the meaning of every instruction, one arm a constructor. -/

namespace Sys2Proof.Machine

def exec (i : Instr) (s : State) : Host.Outcome State Fault Refusal :=
  match i with
  | .rxOp0 f => Sys2Proof.Machine.execRxOp0 f s
  | .rxText f => Sys2Proof.Machine.execRxText f s
  | .rxBinary f => Sys2Proof.Machine.execRxBinary f s
  | .rxOp3 f => Sys2Proof.Machine.execRxOp3 f s
  | .rxOp4 f => Sys2Proof.Machine.execRxOp4 f s
  | .rxOp5 f => Sys2Proof.Machine.execRxOp5 f s
  | .rxOp6 f => Sys2Proof.Machine.execRxOp6 f s
  | .rxOp7 f => Sys2Proof.Machine.execRxOp7 f s
  | .rxClose f => Sys2Proof.Machine.execRxClose f s
  | .rxPing h => Sys2Proof.Machine.execRxPing h s
  | .rxPong h => Sys2Proof.Machine.execRxPong h s
  | .rxOpB f => Sys2Proof.Machine.execRxOpB f s
  | .rxOpC f => Sys2Proof.Machine.execRxOpC f s
  | .rxOpD f => Sys2Proof.Machine.execRxOpD f s
  | .rxOpE f => Sys2Proof.Machine.execRxOpE f s
  | .rxOpF f => Sys2Proof.Machine.execRxOpF f s
  | .rxUnmasked h => Sys2Proof.Machine.execRxUnmasked h s
  | .lenLen7 v => Sys2Proof.Machine.execLenLen7 v s
  | .lenLen16 v => Sys2Proof.Machine.execLenLen16 v s
  | .lenLen64 v => Sys2Proof.Machine.execLenLen64 v s
  | .txlenLen7 n => Sys2Proof.Machine.execTxlenLen7 n s
  | .txlenLen16 n => Sys2Proof.Machine.execTxlenLen16 n s
  | .txlenLen64 n => Sys2Proof.Machine.execTxlenLen64 n s
  | .txEcho m => Sys2Proof.Machine.execTxEcho m s
  | .txClose code reason => Sys2Proof.Machine.execTxClose code reason s
  | .fsmAwaitHeader => Sys2Proof.Machine.execFsmAwaitHeader s
  | .fsmAwaitLength => Sys2Proof.Machine.execFsmAwaitLength s
  | .fsmAwaitMaskKey => Sys2Proof.Machine.execFsmAwaitMaskKey s
  | .fsmAwaitPayload => Sys2Proof.Machine.execFsmAwaitPayload s
  | .fsmClosePending => Sys2Proof.Machine.execFsmClosePending s
  | .fsmComplete => Sys2Proof.Machine.execFsmComplete s

end Sys2Proof.Machine
end

