-- ==== Sys2Proof/Machine/Fetch.lean ====
section
/-! DEFINITION. Machine/Fetch.lean: what the next step runs. The block's program counter is the pair of `state` and the front
of the input queue (spec/10_state.md R23): inside a transaction the dispatch loop runs the action of `state`
(spec/40_decoder_states.md R120), which reads its bytes at the queue's front. Between transactions the next input event is
taken (spec/60_exceptions.md R254, R255). An operation presented at the model's own port comes first (log 4). -/

namespace Sys2Proof.Machine

/-- The operation the next step runs, as the bytes at a port, with the state it runs in; none between transactions. -/
def fetch (s : State) : Option (Port × List Byte × State) :=
  match s.request with
  | some (p, code) => some (p, code, { s with request := none })
  | none =>
    if s.inTransaction = true ∧ s.ended = false then some (.fsm, [stateCode s.state], s) else none

/-- Take one input event. -/
def takeEvent : InputEvent → State → State
  | .bytesReceived chunk, s => bytesReceived chunk s
  | .streamClosed, s        => streamClosed s

/-- A step with no operation to run: a loop that finds `ended` returns (R120); the next input event is taken; with none
the block waits (R297, R300). -/
def idle (s : State) : State :=
  if s.inTransaction then { s with inTransaction := false }
  else
    match s.inputs with
    | []           => s
    | e :: later => takeEvent e { s with inputs := later }

/-- Put the operation of a table word where the next step fetches: a value of `state` into the sequencer with its loop running,
any other operation at the port (log 4, 5). The load is the model's: for a value of `state` it also clears `ended`, without which
no loop runs, and empties the port; for any other operation it leaves `ended` as it is (DESIGN CHOICE, log 18). -/
def placeTableWord (s : State) (nbits w : Nat) : State :=
  match tableCode nbits w with
  | (.fsm, code) =>
    match stateOfCode (byteAt code 0) with
    | some st => { s with request := none, inTransaction := true, ended := false, state := st }
    | none    => { s with request := some (.fsm, code) }
  | (p, code) => { s with request := some (p, code) }

end Sys2Proof.Machine
end

