-- ==== Sys2Proof/Machine/Step.lean ====
section
/-! DEFINITION. Machine/Step.lean: one step of the machine: one action of one state (spec/00_scope.md R12), or the taking of one
input event. -/

namespace Sys2Proof.Machine

/-- One step. -/
def step (s : State) : Host.Outcome State Fault Refusal :=
  match fetch s with
  | some (p, code, s') =>
    match decode p code with
    | .ok (i, _) => exec i s'
    | .error e   => .refused (.undecodedOperation e)
  | none => .next (idle s)

/-- `s` with the operation of a table word where the next step fetches it. -/
def State.withFetchWord (s : State) (nbits w : Nat) : State := placeTableWord s nbits w

end Sys2Proof.Machine
end

