-- ==== Sys2Proof/Safety.lean ====
section
/-! DEFINITION. Safety.lean: what a good state and a good run are, in the terms the statements use: the invariants of
spec/10_state.md R40, the state of an ended instance (R41), and the shape of the output trace (R35,
spec/70_reset_and_hazards.md R300). -/

namespace Sys2Proof.Machine

/-- How many payload bytes `fragments` holds. -/
def bytesStored (s : State) : Nat := (s.fragments.map List.length).sum

/-- The invariants of a live instance, before and after every action (R40), with the bound on `frames_received` of R31. -/
structure LiveInv (s : State) : Prop where
  /-- INV1. -/
  total_le      : s.totalPayloadLength.toNat ≤ config.maxMessageSize
  /-- INV2. -/
  masked        : s.state ≠ .awaitHeader → s.masked = true
  /-- INV3 and INV4. -/
  stores        : Memory.wf s = true
  /-- INV5, first part. -/
  stored_eq     : s.state = .awaitHeader ∨ s.state = .awaitLength ∨ s.state = .closePending →
                    bytesStored s = s.totalPayloadLength.toNat
  /-- INV5, second part: the payload of the frame in progress is counted and not stored yet. -/
  stored_add    : s.state = .awaitMaskKey ∨ s.state = .awaitPayload →
                    bytesStored s + s.framePayloadLength.toNat = s.totalPayloadLength.toNat
  /-- INV6. -/
  frame_le      : s.state = .awaitMaskKey ∨ s.state = .awaitPayload →
                    s.framePayloadLength.toNat ≤ config.maxMessageSize
  /-- INV7. -/
  not_ping_pong : s.state ≠ .awaitHeader → s.opcode ≠ 0x9 ∧ s.opcode ≠ 0xA
  /-- INV8. -/
  close_opcode  : s.state = .closePending → s.opcode = 0x8
  /-- INV9. -/
  fresh         : s.state = .awaitHeader → s.totalPayloadLength = 0 → s.fragments = [] ∧ s.framesReceived = 0
  /-- R31: every counted frame but a last CLOSE frame brought at least one stored byte. -/
  frames_le     : s.framesReceived.toNat ≤ bytesStored s + (if s.state = .closePending then 1 else 0)

/-- The registers and stores of an ended instance: the full-reset values (R40 last paragraph, R41), the loop stopped. -/
structure AtFullReset (s : State) : Prop where
  state     : s.state = .awaitHeader
  fin       : s.fin = false
  opcode    : s.opcode = 0
  masked    : s.masked = false
  indicator : s.payloadSizeIndicator = 0
  frame     : s.framePayloadLength = 0
  total     : s.totalPayloadLength = 0
  key       : s.maskKey = zeroKey
  fragments : s.fragments = []
  frames    : s.framesReceived = 0
  pending   : s.pendingChunks = []
  buffered  : s.bufferedLength = 0
  stopped   : s.inTransaction = false

/-- The states a session goes through: nothing at the model's own port, the invariants of R40 while live, the full-reset
values once ended. -/
structure SessionInv (s : State) : Prop where
  noRequest : s.request = none
  live      : s.ended = false → LiveInv s
  ended     : s.ended = true → AtFullReset s

/-- `k` steps, stopping at the first fault or refusal. -/
def runSteps : Nat → State → Result
  | 0, s => .next s
  | k + 1, s =>
    match step s with
    | .next t    => runSteps k t
    | .fault r   => .fault r
    | .refused r => .refused r

/-- Whole frames, one after another, stopping at the first fault or refusal. -/
def runFrames : List Instr → State → Result
  | [], s => .next s
  | i :: later, s =>
    match exec i s with
    | .next t    => runFrames later t
    | .fault r   => .fault r
    | .refused r => .refused r

/-- An echo reply on the output: a `write` whose first byte is 0x82 (R100). -/
def isEcho : OutputEvent → Bool
  | .write (b :: _) => b == 0x82
  | _ => false

/-- A close frame on the output: a `write` whose first byte is 0x88 (R100). -/
def isCloseFrame : OutputEvent → Bool
  | .write (b :: _) => b == 0x88
  | _ => false

/-- Zero or more echo replies, then at most one close frame followed by `end()`, or `end()` alone, or nothing (R300). -/
def sessionTrace : List OutputEvent → Bool
  | []               => true
  | .endConnection :: rest => rest == []
  | e :: rest        => if isEcho e then sessionTrace rest else isCloseFrame e && rest == [.endConnection]

/-- The output of a session so far: of the shape of R300, and nothing but echo replies while live. -/
structure TraceInv (s : State) : Prop where
  shape : sessionTrace s.output = true
  live  : s.ended = false → s.output.all isEcho = true

end Sys2Proof.Machine
end

