-- ==== Sys2Proof/WellFormed.lean ====
section
/-! DEFINITION. WellFormed.lean: which instruction terms stand for an operation of the block. A Bool, so that it can be
decided on a term. -/

namespace Sys2Proof

/-- A LEN7 field is 0 to 125; the other two forms take every value (R93, R95). -/
def LengthField.wf : LengthField → Bool
  | .len7 v  => v.toNat ≤ 125
  | .len16 _ => true
  | .len64 _ => true

/-- A frame carries exactly the payload its length field announces (R90, R93). -/
def RxFrame.wf (f : RxFrame) : Bool :=
  f.len.wf && f.wire.length == f.len.toNat

/-- The operand ranges of the table's rows. `TXLEN.*`: the form is chosen from `n` (R99). `TX.ECHO`: 1 to
`MAX_MESSAGE_SIZE` bytes (R220). `TX.CLOSE`: the payload length fits the 64-bit form (R99, R101). -/
def Instr.wf : Instr → Bool
  | .rxOp0 f | .rxText f | .rxBinary f | .rxOp3 f | .rxOp4 f | .rxOp5 f | .rxOp6 f | .rxOp7 f | .rxClose f
  | .rxOpB f | .rxOpC f | .rxOpD f | .rxOpE f | .rxOpF f => f.wf
  | .rxPing _ | .rxPong _ | .rxUnmasked _ => true
  | .lenLen7 v => v.toNat ≤ 125
  | .lenLen16 _ | .lenLen64 _ => true
  | .txlenLen7 n => n.toNat ≤ 125
  | .txlenLen16 n => 126 ≤ n.toNat
  | .txlenLen64 n => 65536 ≤ n.toNat
  | .txEcho m => 1 ≤ m.length && m.length ≤ config.maxMessageSize
  | .txClose _ reason => reason.length + 2 < 2 ^ 64
  | .fsmAwaitHeader | .fsmAwaitLength | .fsmAwaitMaskKey | .fsmAwaitPayload | .fsmClosePending | .fsmComplete => true

end Sys2Proof
end

