-- ==== Sys2Proof/Certificates/Slice0/Obligations.lean ====
section
/-! DEFINITION. Certificates/Slice0/Obligations.lean: the statements for the provers. They come from the rules of spec/; fixed
numbers (the cap, the close codes) stand as the spec prints them. The OPEN parameters are opaque, so a statement
that names one holds for every value of it (log 1). -/

namespace Sys2Proof.Machine

/-! ### Words the statements share -/

/-- `i` is the row of a data frame `f` with opcode `op`: every opcode but CLOSE, PING and PONG (R98). -/
def IsDataRow (i : Instr) (op : BitVec 4) (f : RxFrame) : Prop :=
  (i = .rxOp0 f ∧ op = 0x0) ∨ (i = .rxText f ∧ op = 0x1) ∨ (i = .rxBinary f ∧ op = 0x2) ∨
  (i = .rxOp3 f ∧ op = 0x3) ∨ (i = .rxOp4 f ∧ op = 0x4) ∨ (i = .rxOp5 f ∧ op = 0x5) ∨
  (i = .rxOp6 f ∧ op = 0x6) ∨ (i = .rxOp7 f ∧ op = 0x7) ∨ (i = .rxOpB f ∧ op = 0xB) ∨
  (i = .rxOpC f ∧ op = 0xC) ∨ (i = .rxOpD f ∧ op = 0xD) ∨ (i = .rxOpE f ∧ op = 0xE) ∨
  (i = .rxOpF f ∧ op = 0xF)

/-- The session has ended: `events` follow on the output, every register and store has its full-reset value, the loop has
stopped (R250, R283). `field` is what stands on the encoder's length output (log 7). -/
def endedWith (events : List OutputEvent) (field : List Byte) (s : State) : State where
  state := .awaitHeader
  fin := false
  opcode := 0
  masked := false
  payloadSizeIndicator := 0
  framePayloadLength := 0
  totalPayloadLength := 0
  maskKey := ⟨0, 0, 0, 0⟩
  fragments := []
  framesReceived := 0
  pendingChunks := []
  bufferedLength := 0
  ended := true
  output := s.output ++ events
  inputs := s.inputs
  inTransaction := false
  encoderLength := field
  request := s.request

/-- The session has ended with a close frame (R250). -/
def closedWith (code : Word) (reason : List Byte) (s : State) : State :=
  endedWith [.write (encodeClose code reason), .endConnection] (txLengthField (2 + reason.length)) s

/-- The session has ended without a reply (R169). -/
def endedSilently (s : State) : State := endedWith [.endConnection] s.encoderLength s

/-- A message has been echoed and the per-message reset done (R125); the queue and `ended` are kept. -/
def messageEchoed (m : List Byte) (s : State) : State :=
  { s with
    state := .awaitHeader
    fin := false
    opcode := 0
    masked := false
    payloadSizeIndicator := 0
    framePayloadLength := 0
    totalPayloadLength := 0
    maskKey := ⟨0, 0, 0, 0⟩
    fragments := []
    framesReceived := 0
    output := s.output ++ [.write (encodeFrame 0x2 m)]
    encoderLength := txLengthField m.length }

/-- The first `n` bytes have left the queue (R64). -/
def consumed (n : Nat) (s : State) : State :=
  { s with pendingChunks := s.pendingChunks.drop n, bufferedLength := s.bufferedLength - n }

/-- The header registers, the lengths and the key of a whole frame have been written (R210). -/
def headerAndKeyWritten (op : BitVec 4) (f : RxFrame) (s : State) : State :=
  { s with
    fin := f.fin
    opcode := op
    masked := true
    payloadSizeIndicator := lengthIndicator f.len
    framePayloadLength := lengthValue f.len
    totalPayloadLength := s.totalPayloadLength + lengthValue f.len
    maskKey := f.key }

/-- `i` is a well-formed data frame with the true payload `p`, masked with its own key, and FIN as given. -/
def Carries (i : Instr) (p : List Byte) (fin : Bool) : Prop :=
  ∃ op f, IsDataRow i op f ∧ i.wf = true ∧ f.wire = unmask p f.key ∧ f.fin = fin ∧ p ≠ []

end Sys2Proof.Machine

open Sys2Proof Sys2Proof.Machine

/-! ### Encodings -/

/-- Decode and encode agree (spec/30_encoding.md sections 1 to 5): at its port, the code of every well-formed operation
decodes to it and leaves the bytes behind it. The codes at the ports LEN, TXLEN and FSM, bit 3 as the mark of COMPLETE among
them, are the model's choice (log 5). -/
def Obligations.DecodeEncodeRoundTrip : Prop :=
  ∀ (i : Instr) (rest : List Byte), i.wf = true → decode i.port (encode i ++ rest) = .ok (i, rest)

/-- The other direction: what a port decodes is a well-formed operation of that port, and the bytes taken are its code; so
each code has one meaning at its port. At the port FSM that rests on the mark of COMPLETE and at the ports LEN and TXLEN on the
byte with bit 7 clear, both the model's choice (log 5). -/
def Obligations.DecodedCodeIsItsEncoding : Prop :=
  ∀ (p : Port) (bs rest : List Byte) (i : Instr), decode p bs = .ok (i, rest) →
    i.port = p ∧ i.wf = true ∧ encode i ++ rest = bs

/-- Frames written out as bytes decode to what they stand for (spec/95_test_vectors.md VD1, VC4, VH3, VH5, VL7, VE4, VE13,
and the echo of VD1). The words at the ports LEN, TXLEN and FSM are codes of the model's (log 5); that AWAIT_PAYLOAD is
encoded 3 is D18, the spec's decision (spec/10_state.md section 2). -/
def Obligations.SampleWordsDecode : Prop :=
  decode .rx [0x81, 0x85, 0x37, 0xFA, 0x21, 0x3D, 0x7F, 0x9F, 0x4D, 0x51, 0x58]
      = .ok (.rxText ⟨true, 0, .len7 5, ⟨0x37, 0xFA, 0x21, 0x3D⟩, [0x7F, 0x9F, 0x4D, 0x51, 0x58]⟩, []) ∧
  decode .rx [0x88, 0x82, 0, 0, 0, 0, 0x03, 0xE8]
      = .ok (.rxClose ⟨true, 0, .len7 2, ⟨0, 0, 0, 0⟩, [0x03, 0xE8]⟩, []) ∧
  decode .rx [0x89, 0x80] = .ok (.rxPing ⟨true, 0, 0⟩, []) ∧
  decode .rx [0x81, 0x05] = .ok (.rxUnmasked ⟨true, 0, 1, 5⟩, []) ∧
  decode .len [0x7F, 0, 0, 0, 0, 0, 1, 0, 0] = .ok (.lenLen64 65536, []) ∧
  decode .txlen [0x7E, 0, 0x7E] = .ok (.txlenLen16 126, []) ∧
  decode .tx [0x82, 0x05, 0x48, 0x65, 0x6C, 0x6C, 0x6F] = .ok (.txEcho [0x48, 0x65, 0x6C, 0x6C, 0x6F], []) ∧
  decode .tx [0x88, 0x02, 0x03, 0xE8] = .ok (.txClose 1000 [], []) ∧
  decode .fsm [3] = .ok (.fsmAwaitPayload, [])

/-- R93, the table of the inbound length forms: which bytes follow an indicator and what `L` they give, big-endian. -/
def Obligations.InboundLengthForms : Prop :=
  (∀ psi : BitVec 7, psi.toNat ≤ 125 →
    extendedBytes psi = 0 ∧ ∀ ext, (inboundLength psi ext).toNat = psi.toNat) ∧
  (extendedBytes 126 = 2 ∧ ∀ a b : Byte, (inboundLength 126 [a, b]).toNat = a.toNat * 256 + b.toNat) ∧
  (extendedBytes 127 = 8 ∧ ∀ a b c d e f g h : Byte,
    (inboundLength 127 [a, b, c, d, e, f, g, h]).toNat
      = a.toNat * 256 ^ 7 + b.toNat * 256 ^ 6 + c.toNat * 256 ^ 5 + d.toNat * 256 ^ 4 + e.toNat * 256 ^ 3
        + f.toNat * 256 ^ 2 + g.toNat * 256 + h.toNat)

/-- R99, the table of the outbound length forms, each byte as a number, and that no other form of the same length is
shorter. -/
def Obligations.OutboundLengthForms : Prop :=
  (∀ n : Nat, n ≤ 125 → txLengthField n = [BitVec.ofNat 8 n]) ∧
  (∀ n : Nat, 126 ≤ n → n ≤ 65535 →
    txLengthField n = [0x7E, BitVec.ofNat 8 (n / 256), BitVec.ofNat 8 n]) ∧
  (∀ n : Nat, 65536 ≤ n → n < 2 ^ 64 →
    txLengthField n = [0x7F, BitVec.ofNat 8 (n / 256 ^ 7), BitVec.ofNat 8 (n / 256 ^ 6), BitVec.ofNat 8 (n / 256 ^ 5),
      BitVec.ofNat 8 (n / 256 ^ 4), BitVec.ofNat 8 (n / 256 ^ 3), BitVec.ofNat 8 (n / 256 ^ 2), BitVec.ofNat 8 (n / 256),
      BitVec.ofNat 8 n]) ∧
  (∀ len : LengthField, len.wf = true → (txLengthField len.toNat).length ≤ 1 + (lengthExtension len).length)

/-- The length round trip (spec/44_frame_encoder.md R197, derived there): byte 1 and the extended length of the encoder, read
as the decoder reads them, give the length back. -/
def Obligations.OutboundLengthReadsBack : Prop :=
  ∀ n : Nat, n < 2 ^ 64 → ∃ (b : Byte) (ext : List Byte), txLengthField n = b :: ext ∧ headerMask b = false ∧
    ext.length = extendedBytes (headerIndicator b) ∧ (inboundLength (headerIndicator b) ext).toNat = n

/-- R180: each byte at index `i` is XORed with `mask_key[i mod 4]`, the length is kept, an empty payload stays empty and a
zero key changes nothing. -/
def Obligations.UnmaskXorsEachByteWithItsKeyByte : Prop :=
  ∀ (p : List Byte) (key : MaskKey),
    (unmask p key).length = p.length ∧
    (∀ i : Nat, i < p.length →
      byteAt (unmask p key) i = byteAt p i ^^^ byteAt [key.k0, key.k1, key.k2, key.k3] (i % 4)) ∧
    unmask [] key = [] ∧ unmask p ⟨0, 0, 0, 0⟩ = p

/-- R181: unmasking twice with one key gives the payload back. -/
def Obligations.UnmaskTwiceIsIdentity : Prop :=
  ∀ (p : List Byte) (key : MaskKey), unmask (unmask p key) key = p

/-- EncodeFrame (spec/44_frame_encoder.md): FIN = 1, RSV = 000, opcode; length form by the payload length with MASK 0; the payload
as it is; no key. For a payload of 2^64 bytes or more the low 64 bits of its length stand in the third form, which is
the model's choice (log 15). -/
def Obligations.EncodeFrameLayout : Prop :=
  ∀ (op : BitVec 4) (v : List Byte), op = 0x2 ∨ op = 0x8 →
    (v.length ≤ 125 →
      encodeFrame op v = [BitVec.ofNat 8 (0x80 + op.toNat), BitVec.ofNat 8 v.length] ++ v) ∧
    (126 ≤ v.length → v.length ≤ 65535 →
      encodeFrame op v
        = [BitVec.ofNat 8 (0x80 + op.toNat), 126] ++ be16 (BitVec.ofNat 16 v.length) ++ v) ∧
    (65536 ≤ v.length →
      encodeFrame op v
        = [BitVec.ofNat 8 (0x80 + op.toNat), 127] ++ be64 (BitVec.ofNat 64 v.length) ++ v)

/-- R194: a close frame is the frame with opcode 8 whose payload is the big-endian code and the reason; from 124 reason bytes
on it takes the 16-bit form. -/
def Obligations.CloseFrameLayout : Prop :=
  ∀ (code : Word) (reason : List Byte),
    encodeClose code reason
      = encodeFrame 0x8 ([BitVec.ofNat 8 (code.toNat / 256), BitVec.ofNat 8 code.toNat] ++ reason) ∧
    (reason.length ≤ 123 →
      (encodeClose code reason).take 2 = [0x88, BitVec.ofNat 8 (2 + reason.length)] ∧
      (encodeClose code reason).length = 4 + reason.length) ∧
    (124 ≤ reason.length → reason.length ≤ 65533 →
      (encodeClose code reason).take 2 = [0x88, 0x7E] ∧
      (encodeClose code reason).length = 6 + reason.length)

/-- The block's own frames are no valid inbound frames (spec/44_frame_encoder.md R198, derived there): at the inbound port they
are unmasked frames. -/
def Obligations.OutboundFrameIsUnmaskedInbound : Prop :=
  ∀ (op : BitVec 4) (v : List Byte), op = 0x2 ∨ op = 0x8 →
    ∃ h rest, decode .rx (encodeFrame op v) = .ok (.rxUnmasked h, rest) ∧ h.opcode = op

/-- RSV on an inbound frame is ignored (D7; the spec's decision): a frame runs as the frame with RSV 000, and AWAIT_HEADER does
not read byte 0 bits 6 to 4. -/
def Obligations.RsvBitsAreIgnored : Prop :=
  (∀ (i : Instr) (op : BitVec 4) (f : RxFrame) (s : State), IsDataRow i op f →
    ∃ j, IsDataRow j op { f with rsv := 0 } ∧ exec i s = exec j s) ∧
  (∀ (f : RxFrame) (s : State), exec (.rxClose f) s = exec (.rxClose { f with rsv := 0 }) s) ∧
  (∀ (fin : Bool) (rsv : BitVec 3) (op : BitVec 4) (b1 : Byte) (q : List Byte) (s : State),
    s.ended = false →
    exec .fsmAwaitHeader { s with pendingChunks := headerByte0 fin rsv op :: b1 :: q, bufferedLength := q.length + 2 }
      = exec .fsmAwaitHeader
          { s with pendingChunks := headerByte0 fin 0 op :: b1 :: q, bufferedLength := q.length + 2 })

/-! ### The input queue -/

/-- R64: `consume(n)` with `n` bytes buffered returns the first `n` bytes and removes exactly them from the contents and the
count, and changes nothing else; with fewer it is BufferUnderrun, on which an action stops; `consume(0)` changes nothing. -/
def Obligations.ConsumeRemovesExactlyN : Prop :=
  (∀ (n : Nat) (s : State) (k : List Byte → State → Result), s.bufferedLength < n →
    consume n s = none ∧ takeBytes n s k = .fault .bufferUnderrun) ∧
  (∀ (r rest : List Byte) (s : State), s.pendingChunks = r ++ rest → s.bufferedLength = s.pendingChunks.length →
    consume r.length s = some (r, { s with pendingChunks := rest, bufferedLength := rest.length })) ∧
  (∀ s : State, consume 0 s = some ([], s))

/-- A chunk arrives whole before any action runs, and the loop starts; a zero-length chunk adds nothing
(spec/40_decoder_states.md section 1, spec/20_memory.md section 2; D19, D21, D28 are the spec's decisions). The step that takes
the event is the model's (log 2). -/
def Obligations.ChunkIsAppendedWhole : Prop :=
  ∀ (chunk : List Byte) (later : List InputEvent) (s : State),
    s.request = none → s.inTransaction = false → s.ended = false → s.inputs = .bytesReceived chunk :: later →
    step s = .next { s with
      pendingChunks := s.pendingChunks ++ chunk
      bufferedLength := s.bufferedLength + chunk.length
      inTransaction := true
      inputs := later }

/-- The stream closes: full reset, `ended`, no output (spec/60_exceptions.md section 4; D24 is the spec's decision). -/
def Obligations.StreamClosedEndsSilently : Prop :=
  ∀ (later : List InputEvent) (s : State),
    s.request = none → s.inTransaction = false → s.ended = false → s.inputs = .streamClosed :: later →
    step s = .next { endedWith [] s.encoderLength s with inputs := later }

/-! ### The sequencer's actions -/

/-- AWAIT_HEADER (spec/40_decoder_states.md section 2): a masked header other than PING and PONG is taken into the four
header registers. The order of its tests is the spec's decision D4. -/
def Obligations.AwaitHeaderTakesTwoBytes : Prop :=
  ∀ (b0 b1 : Byte) (q : List Byte) (s : State),
    s.ended = false → s.pendingChunks = b0 :: b1 :: q → s.bufferedLength = s.pendingChunks.length →
    128 ≤ b1.toNat → b0.toNat % 16 ≠ 9 → b0.toNat % 16 ≠ 10 →
    exec .fsmAwaitHeader s = .next { s with
      state := .awaitLength
      fin := decide (128 ≤ b0.toNat)
      opcode := BitVec.ofNat 4 b0.toNat
      masked := true
      payloadSizeIndicator := BitVec.ofNat 7 b1.toNat
      pendingChunks := q
      bufferedLength := q.length }

/-- AWAIT_LENGTH (spec/40_decoder_states.md section 3): with the extended bytes buffered and the total within 1048576, both
lengths are written. That it waits for its bytes, and the meaning of the cap, are the spec's decisions D5, D10, D25. -/
def Obligations.AwaitLengthAddsToTotal : Prop :=
  ∀ (ext q : List Byte) (s : State),
    s.ended = false → s.pendingChunks = ext ++ q → s.bufferedLength = s.pendingChunks.length →
    ext.length = extendedBytes s.payloadSizeIndicator →
    s.totalPayloadLength.toNat + (inboundLength s.payloadSizeIndicator ext).toNat ≤ 1048576 →
    exec .fsmAwaitLength s = .next { s with
      state := .awaitMaskKey
      framePayloadLength := inboundLength s.payloadSizeIndicator ext
      totalPayloadLength :=
        BitVec.ofNat 64 (s.totalPayloadLength.toNat + (inboundLength s.payloadSizeIndicator ext).toNat)
      pendingChunks := q
      bufferedLength := q.length }

/-- AWAIT_MASK_KEY (spec/40_decoder_states.md section 4; D5): the four bytes become the key, in wire order. -/
def Obligations.AwaitMaskKeyTakesFourBytes : Prop :=
  ∀ (k0 k1 k2 k3 : Byte) (q : List Byte) (s : State),
    s.ended = false → s.pendingChunks = k0 :: k1 :: k2 :: k3 :: q → s.bufferedLength = s.pendingChunks.length →
    exec .fsmAwaitMaskKey s = .next { s with
      state := .awaitPayload
      maskKey := ⟨k0, k1, k2, k3⟩
      pendingChunks := q
      bufferedLength := q.length }

/-- AWAIT_PAYLOAD on a frame that is not CLOSE, not empty and not final (spec/40_decoder_states.md section 5): the unmasked
payload is appended and counted. -/
def Obligations.AwaitPayloadStoresFragment : Prop :=
  ∀ (w q : List Byte) (s : State),
    s.ended = false → s.pendingChunks = w ++ q → s.bufferedLength = s.pendingChunks.length →
    w.length = s.framePayloadLength.toNat → w ≠ [] → s.opcode ≠ 0x8 → s.fin = false →
    exec .fsmAwaitPayload s = .next { s with
      state := .awaitHeader
      fragments := s.fragments ++ [unmask w s.maskKey]
      framesReceived := s.framesReceived + 1
      pendingChunks := q
      bufferedLength := q.length }

/-- AWAIT_PAYLOAD on a CLOSE frame (spec/40_decoder_states.md section 5): the payload is appended unless empty, and
CLOSE_PENDING is next, whatever FIN is. -/
def Obligations.AwaitPayloadHandsCloseOn : Prop :=
  ∀ (w q : List Byte) (s : State),
    s.ended = false → s.pendingChunks = w ++ q → s.bufferedLength = s.pendingChunks.length →
    w.length = s.framePayloadLength.toNat → s.opcode = 0x8 →
    exec .fsmAwaitPayload s = .next { s with
      state := .closePending
      fragments := if w = [] then s.fragments else s.fragments ++ [unmask w s.maskKey]
      framesReceived := s.framesReceived + 1
      pendingChunks := q
      bufferedLength := q.length }

/-- COMPLETE (spec/40_decoder_states.md section 6) writes the echo of the concatenation and does the per-message reset, the
queue and `ended` untouched; it is the work of AWAIT_PAYLOAD on a final data frame, where the message is never empty and its
length is the running total; and no action of the sequencer reaches it otherwise: none leaves a live session with more
output. That COMPLETE by itself, in the first clause, tests no qualifier is the model's choice (log 19). -/
def Obligations.CompleteEchoesAndResets : Prop :=
  (∀ s : State, s.ended = false → exec .fsmComplete s = .next (messageEchoed s.fragments.flatten s)) ∧
  (∀ (w q : List Byte) (s : State),
    s.ended = false → s.pendingChunks = w ++ q → s.bufferedLength = s.pendingChunks.length →
    w.length = s.framePayloadLength.toNat → w ≠ [] → s.opcode ≠ 0x8 → s.fin = true →
    exec .fsmAwaitPayload s
      = .next (messageEchoed (s.fragments.flatten ++ unmask w s.maskKey) (consumed w.length s))) ∧
  (∀ (w : List Byte) (s : State),
    LiveInv s → s.state = .awaitPayload → w.length = s.framePayloadLength.toNat → w ≠ [] →
    0 < (s.fragments.flatten ++ unmask w s.maskKey).length ∧
    (s.fragments.flatten ++ unmask w s.maskKey).length = s.totalPayloadLength.toNat ∧
    (s.fragments.flatten ++ unmask w s.maskKey).length ≤ 1048576) ∧
  (∀ s t : State, t.ended = false → t.output ≠ s.output →
    exec .fsmAwaitHeader s ≠ .next t ∧ exec .fsmAwaitLength s ≠ .next t ∧ exec .fsmAwaitMaskKey s ≠ .next t ∧
    exec .fsmClosePending s ≠ .next t ∧
    (exec .fsmAwaitPayload s = .next t → s.opcode ≠ 0x8 ∧ 0 < s.framePayloadLength.toNat ∧ s.fin = true))

/-- CLOSE_PENDING, every case (spec/42_close_handler.md): without a fragment, or with a first fragment of less than two bytes
(D11, the spec's decision), 1008; the code 1001 ends without a reply (D14); any other code is sent back (D3, D12). -/
def Obligations.ClosePendingAnswersFirstFragment : Prop :=
  ∀ s : State, s.ended = false →
    (s.fragments = [] → exec .fsmClosePending s = .next (closedWith 1008 config.reasonNoStatus s)) ∧
    (∀ (c : List Byte) (fr : List (List Byte)), s.fragments = c :: fr → c.length < 2 →
      exec .fsmClosePending s = .next (closedWith 1008 config.reasonNoStatus s)) ∧
    (∀ (a b : Byte) (r : List Byte) (fr : List (List Byte)), s.fragments = (a :: b :: r) :: fr →
      a.toNat * 256 + b.toNat = 1001 → exec .fsmClosePending s = .next (endedSilently s)) ∧
    (∀ (a b : Byte) (r : List Byte) (fr : List (List Byte)), s.fragments = (a :: b :: r) :: fr →
      a.toNat * 256 + b.toNat ≠ 1001 →
      exec .fsmClosePending s
        = .next (closedWith (BitVec.ofNat 16 (a.toNat * 256 + b.toNat)) config.reasonFarewell s))

/-- With fewer bytes buffered than its state needs, an action suspends: no register, no store and no output changes, and the
loop returns (spec/40_decoder_states.md R127, spec/00_scope.md R11; D5 is the spec's decision). -/
def Obligations.ShortQueueSuspends : Prop :=
  ∀ s : State, s.ended = false →
    (s.bufferedLength < 2 → exec .fsmAwaitHeader s = .next { s with inTransaction := false }) ∧
    (s.payloadSizeIndicator = 126 → s.bufferedLength < 2 →
      exec .fsmAwaitLength s = .next { s with inTransaction := false }) ∧
    (s.payloadSizeIndicator = 127 → s.bufferedLength < 8 →
      exec .fsmAwaitLength s = .next { s with inTransaction := false }) ∧
    (s.bufferedLength < 4 → exec .fsmAwaitMaskKey s = .next { s with inTransaction := false }) ∧
    (s.bufferedLength < s.framePayloadLength.toNat →
      exec .fsmAwaitPayload s = .next { s with inTransaction := false })

/-- The write map (spec/10_state.md R42, derived there): an action that leaves the session live, and AWAIT_PAYLOAD where it
sends no echo, changes no register but its own; `inTransaction` is the model's (log 3). CLOSE_PENDING never leaves a
live session. -/
def Obligations.ActionsWriteOnlyTheirRegisters : Prop :=
  ∀ s t : State, t.ended = false →
    (exec .fsmAwaitHeader s = .next t →
      t = { s with state := t.state, fin := t.fin, opcode := t.opcode, masked := t.masked,
                   payloadSizeIndicator := t.payloadSizeIndicator, pendingChunks := t.pendingChunks,
                   bufferedLength := t.bufferedLength, inTransaction := t.inTransaction }) ∧
    (exec .fsmAwaitLength s = .next t →
      t = { s with state := t.state, framePayloadLength := t.framePayloadLength,
                   totalPayloadLength := t.totalPayloadLength, pendingChunks := t.pendingChunks,
                   bufferedLength := t.bufferedLength, inTransaction := t.inTransaction }) ∧
    (exec .fsmAwaitMaskKey s = .next t →
      t = { s with state := t.state, maskKey := t.maskKey, pendingChunks := t.pendingChunks,
                   bufferedLength := t.bufferedLength, inTransaction := t.inTransaction }) ∧
    (exec .fsmAwaitPayload s = .next t → t.output = s.output →
      t = { s with state := t.state, fragments := t.fragments, framesReceived := t.framesReceived,
                   pendingChunks := t.pendingChunks, bufferedLength := t.bufferedLength,
                   inTransaction := t.inTransaction }) ∧
    exec .fsmClosePending s ≠ .next t

/-! ### Whole frames -/

/-- A data frame that is not final (spec/45_frame_types.md sections 1, 2; D6 for the unnamed opcodes): its unmasked payload
is appended, total and count go up, the header registers and the key hold its values, and nothing is sent. That it runs so in
every `state`, not in AWAIT_HEADER alone, is the model's choice (log 17), as in the other statements about whole frames. -/
def Obligations.DataFrameNotFinalIsStored : Prop :=
  ∀ (i : Instr) (op : BitVec 4) (f : RxFrame) (s : State), IsDataRow i op f → i.wf = true →
    s.ended = false → s.totalPayloadLength.toNat + f.len.toNat ≤ 1048576 → 0 < f.len.toNat → f.fin = false →
    exec i s = .next { headerAndKeyWritten op f s with
      state := .awaitHeader
      fragments := s.fragments ++ [unmask f.wire f.key]
      framesReceived := s.framesReceived + 1 }

/-- A final data frame (spec/45_frame_types.md sections 1, 2; D6): the message is sent back as one BINARY frame and the
per-message state is reset, in every `state` (log 17). -/
def Obligations.DataFrameFinalEchoesMessage : Prop :=
  ∀ (i : Instr) (op : BitVec 4) (f : RxFrame) (s : State), IsDataRow i op f → i.wf = true →
    s.ended = false → s.totalPayloadLength.toNat + f.len.toNat ≤ 1048576 → 0 < f.len.toNat → f.fin = true →
    exec i s = .next (messageEchoed (s.fragments.flatten ++ unmask f.wire f.key) s)

/-- A CLOSE frame with a payload, nothing having been stored before it (spec/45_frame_types.md section 3): the code is sent back
with the farewell, or the session ends silently on 1001 (D3, D12, D14); a payload of one byte gets 1008 (D11); in every `state`
(log 17). -/
def Obligations.CloseFrameAnswersItsCode : Prop :=
  ∀ (f : RxFrame) (s : State), f.wf = true →
    s.ended = false → s.fragments = [] → s.totalPayloadLength.toNat + f.len.toNat ≤ 1048576 →
    (∀ (a b : Byte) (r : List Byte), unmask f.wire f.key = a :: b :: r →
      (a.toNat * 256 + b.toNat = 1001 → exec (.rxClose f) s = .next (endedSilently s)) ∧
      (a.toNat * 256 + b.toNat ≠ 1001 →
        exec (.rxClose f) s
          = .next (closedWith (BitVec.ofNat 16 (a.toNat * 256 + b.toNat)) config.reasonFarewell s))) ∧
    (f.len.toNat = 1 → exec (.rxClose f) s = .next (closedWith 1008 config.reasonNoStatus s))

/-- A close frame without payload (spec/42_close_handler.md section 2), nothing stored before it, gets 1008; and only then
are `fragments` empty in CLOSE_PENDING. That the whole frame is answered so in every `state`, not in AWAIT_HEADER alone, is
the model's choice (log 17). -/
def Obligations.CloseWithoutPayloadGets1008 : Prop :=
  (∀ (f : RxFrame) (s : State), f.wf = true → s.ended = false → s.fragments = [] → f.len.toNat = 0 →
    s.totalPayloadLength.toNat ≤ 1048576 →
    exec (.rxClose f) s = .next (closedWith 1008 config.reasonNoStatus s)) ∧
  (∀ (w q : List Byte) (s t : State),
    s.ended = false → s.pendingChunks = w ++ q → s.bufferedLength = s.pendingChunks.length →
    w.length = s.framePayloadLength.toNat → s.opcode = 0x8 → exec .fsmAwaitPayload s = .next t →
    (t.fragments = [] ↔ w = [] ∧ s.fragments = []))

/-- Which bytes the close handler reads (spec/42_close_handler.md section 2): the code and reason come from `fragments[0]`,
which is the close frame's own payload when nothing was stored before it and the first data fragment otherwise, for a close
frame of length 0 too; nothing else of the buffer is read. That the whole frame is answered so in every `state`, not in
AWAIT_HEADER alone, is the model's choice (log 17). -/
def Obligations.CloseReadsFirstFragment : Prop :=
  (∀ (s : State) (c : List Byte) (fr : List (List Byte)), s.ended = false → s.fragments = c :: fr →
    exec .fsmClosePending s = exec .fsmClosePending { s with fragments := [c] }) ∧
  (∀ (f : RxFrame) (s : State), f.wf = true → s.ended = false → s.fragments = [] → 0 < f.len.toNat →
    s.totalPayloadLength.toNat + f.len.toNat ≤ 1048576 →
    exec (.rxClose f) s = exec .fsmClosePending { s with fragments := [unmask f.wire f.key] }) ∧
  (∀ (f : RxFrame) (s : State) (c : List Byte) (fr : List (List Byte)), f.wf = true → s.ended = false →
    s.fragments = c :: fr → s.totalPayloadLength.toNat + f.len.toNat ≤ 1048576 →
    exec (.rxClose f) s = exec .fsmClosePending { s with fragments := [c] })

/-- With data stored before it, a CLOSE frame of any payload, empty too, is answered with the first two bytes of that data
(spec/42_close_handler.md section 2; D3, D12, D14), in every `state` (log 17). -/
def Obligations.InterleavedCloseReadsFirstFragment : Prop :=
  ∀ (f : RxFrame) (a b : Byte) (r : List Byte) (fr : List (List Byte)) (s : State), f.wf = true →
    s.ended = false → s.fragments = (a :: b :: r) :: fr → s.totalPayloadLength.toNat + f.len.toNat ≤ 1048576 →
    (a.toNat * 256 + b.toNat = 1001 → exec (.rxClose f) s = .next (endedSilently s)) ∧
    (a.toNat * 256 + b.toNat ≠ 1001 →
      exec (.rxClose f) s
        = .next (closedWith (BitVec.ofNat 16 (a.toNat * 256 + b.toNat)) config.reasonFarewell s))

/-- PING and PONG end the session with 1003, judged on two bytes (spec/45_frame_types.md section 3; the reason is D2); the
whole frames in every `state` (log 17). -/
def Obligations.PingAndPongGet1003 : Prop :=
  (∀ (h : RxHeader) (s : State), s.ended = false →
    exec (.rxPing h) s = .next (closedWith 1003 config.reasonPingPong s) ∧
    exec (.rxPong h) s = .next (closedWith 1003 config.reasonPingPong s)) ∧
  (∀ (b0 b1 : Byte) (q : List Byte) (s : State),
    s.ended = false → s.pendingChunks = b0 :: b1 :: q → s.bufferedLength = s.pendingChunks.length →
    128 ≤ b1.toNat → b0.toNat % 16 = 9 ∨ b0.toNat % 16 = 10 →
    exec .fsmAwaitHeader s = .next (closedWith 1003 config.reasonPingPong s))

/-- An unmasked frame of any opcode, PING and PONG among them, ends the session with the OPEN code and reason
(spec/45_frame_types.md section 4; D1, D4; log 1); the whole frame in every `state` (log 17). -/
def Obligations.UnmaskedFrameEndsSession : Prop :=
  (∀ (h : UnmaskedHeader) (s : State), s.ended = false →
    exec (.rxUnmasked h) s = .next (closedWith config.codeUnmasked config.reasonUnmasked s)) ∧
  (∀ (b0 b1 : Byte) (q : List Byte) (s : State),
    s.ended = false → s.pendingChunks = b0 :: b1 :: q → s.bufferedLength = s.pendingChunks.length →
    b1.toNat < 128 →
    exec .fsmAwaitHeader s = .next (closedWith config.codeUnmasked config.reasonUnmasked s))

/-- A total above 1048576, taken without wrap-around, ends the session with 1009, before key and payload are looked at:
whole frames, the length forms, and AWAIT_LENGTH (spec/60_exceptions.md section 1; D2, D10, D25); the
whole frames in every `state` (log 17). -/
def Obligations.OversizedMessageGets1009 : Prop :=
  (∀ (i : Instr) (op : BitVec 4) (f : RxFrame) (s : State), IsDataRow i op f ∨ i = .rxClose f →
    s.ended = false → 1048576 < s.totalPayloadLength.toNat + f.len.toNat →
    exec i s = .next (closedWith 1009 config.reasonTooBig s)) ∧
  (∀ (v : BitVec 7) (s : State), s.ended = false → 1048576 < s.totalPayloadLength.toNat + v.toNat →
    exec (.lenLen7 v) s = .next (closedWith 1009 config.reasonTooBig s)) ∧
  (∀ (v : BitVec 16) (s : State), s.ended = false → 1048576 < s.totalPayloadLength.toNat + v.toNat →
    exec (.lenLen16 v) s = .next (closedWith 1009 config.reasonTooBig s)) ∧
  (∀ (v : BitVec 64) (s : State), s.ended = false → 1048576 < s.totalPayloadLength.toNat + v.toNat →
    exec (.lenLen64 v) s = .next (closedWith 1009 config.reasonTooBig s)) ∧
  (∀ (ext q : List Byte) (s : State),
    s.ended = false → s.pendingChunks = ext ++ q → s.bufferedLength = s.pendingChunks.length →
    ext.length = extendedBytes s.payloadSizeIndicator →
    1048576 < s.totalPayloadLength.toNat + (inboundLength s.payloadSizeIndicator ext).toNat →
    exec .fsmAwaitLength s = .next (closedWith 1009 config.reasonTooBig s))

/-- An empty payload on any opcode but CLOSE, for either FIN, ends the session with 1008, unless the cap was passed first
(spec/60_exceptions.md sections 1, 2; D2, D33); the whole frames in every `state` (log 17). -/
def Obligations.EmptyPayloadGets1008 : Prop :=
  (∀ (i : Instr) (op : BitVec 4) (f : RxFrame) (s : State), IsDataRow i op f →
    s.ended = false → s.totalPayloadLength.toNat ≤ 1048576 → f.len.toNat = 0 →
    exec i s = .next (closedWith 1008 config.reasonEmpty s)) ∧
  (∀ s : State, s.ended = false → s.framePayloadLength = 0 → s.opcode ≠ 0x8 →
    exec .fsmAwaitPayload s = .next (closedWith 1008 config.reasonEmpty s))

/-- The three inbound length forms within the cap (spec/30_encoding.md section 2, spec/40_decoder_states.md section 3): `L` is
the form's value, widened with zeros. That a LEN operation by itself is AWAIT_LENGTH with its bytes taken is the model's
(DEDUCED, log 10); the natural sum and the cap of 1048576 inclusive are the spec's decisions D10 and D25. The first
clause holds for 126 and 127 too, which are no well-formed LEN7. -/
def Obligations.LengthFormsResolve : Prop :=
  (∀ (v : BitVec 7) (s : State), s.ended = false → s.totalPayloadLength.toNat + v.toNat ≤ 1048576 →
    exec (.lenLen7 v) s = .next { s with
      state := .awaitMaskKey
      framePayloadLength := BitVec.ofNat 64 v.toNat
      totalPayloadLength := BitVec.ofNat 64 (s.totalPayloadLength.toNat + v.toNat) }) ∧
  (∀ (v : BitVec 16) (s : State), s.ended = false → s.totalPayloadLength.toNat + v.toNat ≤ 1048576 →
    exec (.lenLen16 v) s = .next { s with
      state := .awaitMaskKey
      framePayloadLength := BitVec.ofNat 64 v.toNat
      totalPayloadLength := BitVec.ofNat 64 (s.totalPayloadLength.toNat + v.toNat) }) ∧
  (∀ (v : BitVec 64) (s : State), s.ended = false → s.totalPayloadLength.toNat + v.toNat ≤ 1048576 →
    exec (.lenLen64 v) s = .next { s with
      state := .awaitMaskKey
      framePayloadLength := v
      totalPayloadLength := BitVec.ofNat 64 (s.totalPayloadLength.toNat + v.toNat) })

/-- The three outbound length forms (spec/30_encoding.md section 5): the length field stands on the encoder's output and
nothing else changes. The output node is the model's (log 7). -/
def Obligations.OutboundLengthFormsStand : Prop :=
  (∀ (n : BitVec 7) (s : State), s.ended = false →
    exec (.txlenLen7 n) s = .next { s with encoderLength := [BitVec.ofNat 8 n.toNat] }) ∧
  (∀ (n : BitVec 16) (s : State), s.ended = false →
    exec (.txlenLen16 n) s
      = .next { s with encoderLength := [0x7E, BitVec.ofNat 8 (n.toNat / 256), BitVec.ofNat 8 n.toNat] }) ∧
  (∀ (n : BitVec 64) (s : State), s.ended = false →
    exec (.txlenLen64 n) s = .next { s with encoderLength :=
      [0x7F, BitVec.ofNat 8 (n.toNat / 256 ^ 7), BitVec.ofNat 8 (n.toNat / 256 ^ 6), BitVec.ofNat 8 (n.toNat / 256 ^ 5),
       BitVec.ofNat 8 (n.toNat / 256 ^ 4), BitVec.ofNat 8 (n.toNat / 256 ^ 3), BitVec.ofNat 8 (n.toNat / 256 ^ 2),
       BitVec.ofNat 8 (n.toNat / 256), BitVec.ofNat 8 n.toNat] })

/-- TX.ECHO (spec/44_frame_encoder.md, spec/45_frame_types.md section 5): one `write` of a frame that is TX.ECHO of the
message, and nothing else but the encoder's length node (log 7) changes; the connection is not ended. That it
runs by itself, not from COMPLETE alone, is the model's choice (log 19). -/
def Obligations.EchoIsOneBinaryWrite : Prop :=
  ∀ (m : List Byte) (s : State), s.ended = false → (Instr.txEcho m).wf = true →
    exec (.txEcho m) s = .next { s with
      output := s.output ++ [.write (encode (.txEcho m))], encoderLength := txLengthField m.length }

/-- TX.CLOSE (spec/44_frame_encoder.md, spec/45_frame_types.md section 5): one `write` of a frame that is TX.CLOSE of code and
reason, then `end()`; the reset that goes with it is R250 and D14 (log 8). -/
def Obligations.CloseFrameThenEnd : Prop :=
  ∀ (code : Word) (reason : List Byte) (s : State), s.ended = false → (Instr.txClose code reason).wf = true →
    exec (.txClose code reason) s
      = .next (endedWith [.write (encode (.txClose code reason)), .endConnection] (txLengthField (2 + reason.length)) s)

/-! ### Resets and endings -/

/-- The full reset (spec/70_reset_and_hazards.md section 1) returns to AWAIT_HEADER, zeroes every register, clears `fragments` and
the queue, and touches neither `ended` nor the output (nor the model's own fields). That every decoder register is
zeroed comes through the per-message reset, the spec's decision D29 (log 14). -/
def Obligations.FullResetClearsAllButEndedAndOutput : Prop :=
  ∀ s : State, fullReset s = { s with
    state := .awaitHeader, fin := false, opcode := 0, masked := false, payloadSizeIndicator := 0,
    framePayloadLength := 0, totalPayloadLength := 0, maskKey := ⟨0, 0, 0, 0⟩, fragments := [], framesReceived := 0,
    pendingChunks := [], bufferedLength := 0 }

/-- The per-message reset keeps the queue, `ended` and the output (spec/70_reset_and_hazards.md section 1; D29). -/
def Obligations.PerMessageResetKeepsQueue : Prop :=
  ∀ s : State, perMessageReset s = { s with
    state := .awaitHeader, fin := false, opcode := 0, masked := false, payloadSizeIndicator := 0,
    framePayloadLength := 0, totalPayloadLength := 0, maskKey := ⟨0, 0, 0, 0⟩, fragments := [], framesReceived := 0 }

/-- Session creation (spec/10_state.md section 9, spec/70_reset_and_hazards.md section 1; D17 is the spec's decision): the
full-reset values, the trace empty, `ended` 0; AWAIT_HEADER encoded 0 (spec/10_state.md section 2; D18 too); the stores in
canonical form, and the model's own fields empty (log 2, 3, 4, 7). -/
def Obligations.SessionCreationState : Prop :=
  State.reset = ⟨.awaitHeader, false, 0, false, 0, 0, 0, ⟨0, 0, 0, 0⟩, [], 0, [], 0, false, [], [], false, [], none⟩ ∧
  Memory.wf State.reset = true ∧ stateCode State.reset.state = 0

/-- Nothing happens once `ended` is 1 (spec/10_state.md section 4; D15): no operation changes anything, and a step does no
more than let the loop return or drop an input event. That the operations check `ended` themselves is log 9. -/
def Obligations.EndedInstanceIsInert : Prop :=
  ∀ s : State, s.ended = true →
    (∀ i : Instr, exec i s = .next s) ∧
    (s.request = none → ∃ t, step s = .next t ∧
      t = { s with inputs := t.inputs, inTransaction := t.inTransaction } ∧
      (s.inTransaction = false → t.inputs = s.inputs.tail))

/-- Operations only add to the output, leave the coming input events alone, and never clear `ended`
(spec/20_memory.md section 1, spec/10_state.md section 4); a step does neither more. -/
def Obligations.OutputOnlyGrowsAndEndedStays : Prop :=
  (∀ (i : Instr) (s t : State), exec i s = .next t →
    (∃ events, t.output = s.output ++ events) ∧ t.inputs = s.inputs ∧ t.request = s.request ∧
    (s.ended = true → t.ended = true)) ∧
  (∀ s t : State, step s = .next t →
    (∃ events, t.output = s.output ++ events) ∧ (s.ended = true → t.ended = true))

/-! ### Steps -/

/-- A step runs what it fetches (spec/00_scope.md R12, spec/10_state.md R23). Inside a transaction: the action of `state`.
At the model's own port: the operation its bytes decode to, the port then empty (log 4). -/
def Obligations.StepRunsTheFetchedOperation : Prop :=
  (∀ s : State, s.request = none → s.inTransaction = true → s.ended = false →
    (s.state = .awaitHeader → step s = exec .fsmAwaitHeader s) ∧
    (s.state = .awaitLength → step s = exec .fsmAwaitLength s) ∧
    (s.state = .awaitMaskKey → step s = exec .fsmAwaitMaskKey s) ∧
    (s.state = .awaitPayload → step s = exec .fsmAwaitPayload s) ∧
    (s.state = .closePending → step s = exec .fsmClosePending s)) ∧
  (∀ (i : Instr) (rest : List Byte) (s : State), i.wf = true → s.request = some (i.port, encode i ++ rest) →
    step s = exec i { s with request := none })

/-- The invariants of R40 hold at session creation. -/
def Obligations.ResetMeetsInvariants : Prop := SessionInv State.reset ∧ TraceInv State.reset

/-- Every step keeps the invariants of R40 (spec/10_state.md section 8, derived there), the bound on `frames_received` and the
full-reset values of an ended instance. -/
def Obligations.StepKeepsInvariants : Prop := ∀ s t : State, SessionInv s → step s = .next t → SessionInv t

/-- The output trace (spec/70_reset_and_hazards.md section 5, spec/10_state.md section 4, derived there; spec/20_memory.md
section 4): the block emits `end()` at most once, after the last `write`, and sets `ended` with it; while
live it has written echo replies only. -/
def Obligations.StepKeepsSessionTrace : Prop :=
  (∀ s t : State, TraceInv s → step s = .next t → TraceInv t) ∧
  (∀ s t : State, TraceInv s → step s = .next t →
    .endConnection ∈ t.output → t.ended = true ∧ t.output.getLast? = some .endConnection ∧
      t.output.count .endConnection = 1)

/-- Every operation and every step keeps the canonical form of the stores (spec/10_state.md section 8: INV3, INV4). -/
def Obligations.StoresStayCanonical : Prop :=
  (∀ (i : Instr) (s t : State), Memory.wf s = true → exec i s = .next t → Memory.wf t = true) ∧
  (∀ s t : State, Memory.wf s = true → step s = .next t → Memory.wf t = true)

/-- BufferUnderrun cannot happen, and no step is refused (spec/20_memory.md section 2, spec/60_exceptions.md section 1; D5,
D16): with the queue's count right, every operation, and every step of a session, answers a next state. -/
def Obligations.NoUnderrunAndNoRefusal : Prop :=
  (∀ (i : Instr) (s : State), Memory.wf s = true → ∃ t, exec i s = .next t) ∧
  (∀ s : State, Memory.wf s = true → s.request = none → ∃ t, step s = .next t)

/-- `frames_received` never passes 2^20 + 1 (spec/10_state.md R31, derived there), so adding 1 never wraps: a step from a state
that meets the invariants adds at most 1 as a natural number. -/
def Obligations.FramesReceivedNeverOverflows : Prop :=
  ∀ s t : State, SessionInv s → step s = .next t →
    s.framesReceived.toNat ≤ 1048577 ∧ t.framesReceived.toNat ≤ 1048577 ∧
    (t.framesReceived = s.framesReceived + 1 → t.framesReceived.toNat = s.framesReceived.toNat + 1)

/-- A transaction ends (spec/70_reset_and_hazards.md section 4, spec/40_decoder_states.md section 1): from any state of a
session, the loop suspends or the session ends after a bounded number of actions. -/
def Obligations.TransactionEnds : Prop :=
  ∀ s : State, SessionInv s → s.inTransaction = true →
    ∃ k t, k ≤ 2 * s.bufferedLength + 4 ∧ runSteps k s = .next t ∧ t.inTransaction = false

/-- Chunk boundaries are not observable (spec/20_memory.md section 2, derived there): chunks delivered one by one and the same
bytes in one chunk lead to the same state, output included. -/
def Obligations.ChunkBoundariesAreNotObservable : Prop :=
  ∀ (s : State) (chunks : List (List Byte)), SessionInv s → s.inTransaction = false → s.inputs = [] → chunks ≠ [] →
    ∃ k₁ k₂ t, runSteps k₁ { s with inputs := chunks.map .bytesReceived } = .next t ∧
      runSteps k₂ { s with inputs := [.bytesReceived chunks.flatten] } = .next t ∧
      t.inTransaction = false ∧ t.inputs = []

/-- A whole frame does what the actions do on its bytes (spec/45_frame_types.md section 1, derived there): with the frame at the
front of the queue, at most five steps lead to the state of the whole frame's rule, its bytes consumed (log 10). -/
def Obligations.WholeFrameEqualsItsActions : Prop :=
  ∀ (i : Instr) (rest : List Byte) (s : State), i.port = .rx → i.wf = true → s.request = none →
    s.inTransaction = true → s.ended = false → s.state = .awaitHeader →
    s.pendingChunks = encode i ++ rest → s.bufferedLength = s.pendingChunks.length →
    ∃ k t, k ≤ 5 ∧ exec i { s with pendingChunks := rest, bufferedLength := rest.length } = .next t ∧
      runSteps k s = .next t

/-- A message in fragments (spec/41_fragment_reassembler.md section 4, spec/40_decoder_states.md section 9, derived there): data
frames of any opcodes, keys and length forms, FIN on the last alone, within the cap, give one echo of the joined true
payloads and leave the idle state; the first frame in every `state` (log 17). -/
def Obligations.FragmentsReassembleInOrder : Prop :=
  ∀ (parts : List (Instr × List Byte)) (last : Instr) (p : List Byte) (s : State),
    (∀ x ∈ parts, Carries x.1 x.2 false) → Carries last p true →
    s.ended = false → s.totalPayloadLength = 0 → s.fragments = [] →
    ((parts.map Prod.snd).flatten ++ p).length ≤ 1048576 →
    ∃ t, runFrames (parts.map Prod.fst ++ [last]) s = .next t ∧
      t.output = s.output ++ [.write (encodeFrame 0x2 ((parts.map Prod.snd).flatten ++ p))] ∧
      t.ended = false ∧ t.state = .awaitHeader ∧ t.fragments = [] ∧ t.totalPayloadLength = 0 ∧
      t.framesReceived = 0 ∧ t.pendingChunks = s.pendingChunks ∧ t.bufferedLength = s.bufferedLength
end

