-- ==== Sys2Proof/Laws/Bits.lean ====
section
/-! SUPPORT. Laws/Bits.lean: the small lemmas of the byte-order and bit-field helpers of Decode.lean: each field of a header byte
that was put together reads back, a header byte is put together from its fields, and the big-endian
helpers are inverse to each other. -/

namespace Sys2Proof

/-! ### Header bytes -/

@[simp] theorem headerFin_headerByte0 (f : Bool) (r : BitVec 3) (o : BitVec 4) :
    headerFin (headerByte0 f r o) = f := by
  revert f r o; decide

@[simp] theorem headerRsv_headerByte0 (f : Bool) (r : BitVec 3) (o : BitVec 4) :
    headerRsv (headerByte0 f r o) = r := by
  revert f r o; decide

@[simp] theorem headerOpcode_headerByte0 (f : Bool) (r : BitVec 3) (o : BitVec 4) :
    headerOpcode (headerByte0 f r o) = o := by
  revert f r o; decide

@[simp] theorem headerMask_headerByte1 (m : Bool) (p : BitVec 7) : headerMask (headerByte1 m p) = m := by
  revert m p; decide

@[simp] theorem headerIndicator_headerByte1 (m : Bool) (p : BitVec 7) :
    headerIndicator (headerByte1 m p) = p := by
  revert m p; decide

theorem headerByte0_fields (b : Byte) : headerByte0 (headerFin b) (headerRsv b) (headerOpcode b) = b := by
  revert b; decide

theorem headerByte1_fields (b : Byte) : headerByte1 (headerMask b) (headerIndicator b) = b := by
  revert b; decide

/-! ### Big-endian byte strings -/

@[simp] theorem beValue_nil : beValue [] = 0 := rfl

theorem beValue_be16 (v : BitVec 16) : beValue (be16 v) = v.toNat := by
  have := v.isLt
  simp [beValue, be16, BitVec.extractLsb'_toNat, Nat.shiftRight_eq_div_pow]
  omega

theorem beValue_be64 (v : BitVec 64) : beValue (be64 v) = v.toNat := by
  have := v.isLt
  simp [beValue, be64, BitVec.extractLsb'_toNat, Nat.shiftRight_eq_div_pow]
  omega

@[simp] theorem be16_length (v : BitVec 16) : (be16 v).length = 2 := rfl
@[simp] theorem be64_length (v : BitVec 64) : (be64 v).length = 8 := rfl

@[simp] theorem ofNat_beValue_be16 (v : BitVec 16) : BitVec.ofNat 16 (beValue (be16 v)) = v := by
  simp [beValue_be16]

@[simp] theorem ofNat_beValue_be64 (v : BitVec 64) : BitVec.ofNat 64 (beValue (be64 v)) = v := by
  simp [beValue_be64]

theorem be16_ofNat_beValue (a b : Byte) : be16 (BitVec.ofNat 16 (beValue [a, b])) = [a, b] := by
  have ha := a.isLt; have hb := b.isLt
  simp only [be16, beValue, List.foldl, List.cons.injEq, and_true]
  constructor <;> apply BitVec.eq_of_toNat_eq <;>
    simp [BitVec.extractLsb'_toNat, Nat.shiftRight_eq_div_pow] <;> omega

theorem be64_ofNat_beValue (a b c d e f g h : Byte) :
    be64 (BitVec.ofNat 64 (beValue [a, b, c, d, e, f, g, h])) = [a, b, c, d, e, f, g, h] := by
  have ha := a.isLt; have hb := b.isLt; have hc := c.isLt; have hd := d.isLt
  have he := e.isLt; have hf := f.isLt; have hg := g.isLt; have hh := h.isLt
  simp only [be64, beValue, List.foldl, List.cons.injEq, and_true]
  refine ⟨?_, ?_, ?_, ?_, ?_, ?_, ?_, ?_⟩ <;> apply BitVec.eq_of_toNat_eq <;>
    simp [BitVec.extractLsb'_toNat, Nat.shiftRight_eq_div_pow] <;> omega

/-! ### Length fields -/

@[simp] theorem lengthExtension_length (len : LengthField) (h : len.wf = true) :
    (lengthExtension len).length = extendedBytes (lengthIndicator len) := by
  cases len with
  | len7 v =>
    have : v.toNat ≤ 125 := by simpa [LengthField.wf] using h
    have h1 : v ≠ 126#7 := by rintro rfl; simp at this
    have h2 : v ≠ 127#7 := by rintro rfl; simp at this
    simp [lengthExtension, lengthIndicator, extendedBytes, h1, h2]
  | len16 v => rfl
  | len64 v => rfl

@[simp] theorem lengthFieldOf_parts (len : LengthField) (h : len.wf = true) :
    lengthFieldOf (lengthIndicator len) (lengthExtension len) = len := by
  cases len with
  | len7 v =>
    have : v.toNat ≤ 125 := by simpa [LengthField.wf] using h
    have h1 : v ≠ 126#7 := by rintro rfl; simp at this
    have h2 : v ≠ 127#7 := by rintro rfl; simp at this
    simp [lengthFieldOf, lengthIndicator, h1, h2]
  | len16 v => simp [lengthFieldOf, lengthIndicator, lengthExtension]
  | len64 v => simp [lengthFieldOf, lengthIndicator, lengthExtension]

@[simp] theorem lengthValue_toNat (len : LengthField) : (lengthValue len).toNat = len.toNat := by
  cases len with
  | len7 v => have := v.isLt; simp [lengthValue, LengthField.toNat]; omega
  | len16 v => have := v.isLt; simp [lengthValue, LengthField.toNat]; omega
  | len64 v => rfl

theorem decodeLength_parts (len : LengthField) (rest : List Byte) (h : len.wf = true) :
    decodeLength (lengthIndicator len) (lengthExtension len ++ rest) = .ok (len, rest) := by
  have hl := lengthExtension_length len h
  simp [decodeLength, ← hl, lengthFieldOf_parts len h]

/-! ### Header bytes as numbers -/

theorem headerOpcode_eq_ofNat (b : Byte) : headerOpcode b = BitVec.ofNat 4 b.toNat := by revert b; decide

theorem headerFin_eq_decide (b : Byte) : headerFin b = decide (128 ≤ b.toNat) := by revert b; decide

theorem headerMask_eq_decide (b : Byte) : headerMask b = decide (128 ≤ b.toNat) := by revert b; decide

theorem headerIndicator_eq_ofNat (b : Byte) : headerIndicator b = BitVec.ofNat 7 b.toNat := by revert b; decide

theorem headerByte1_ofNat (n : Nat) (h : n < 128) : headerByte1 false (BitVec.ofNat 7 n) = BitVec.ofNat 8 n := by
  revert h; revert n; decide

theorem headerByte0_final (op : BitVec 4) : headerByte0 true 0 op = BitVec.ofNat 8 (0x80 + op.toNat) := by
  revert op; decide

/-! ### Big-endian bytes as numbers -/

theorem be16_ofNat (n : Nat) : be16 (BitVec.ofNat 16 n) = [BitVec.ofNat 8 (n / 256), BitVec.ofNat 8 n] := by
  simp only [be16, List.cons.injEq, and_true]
  constructor <;> apply BitVec.eq_of_toNat_eq
  · simp [BitVec.extractLsb'_toNat, Nat.shiftRight_eq_div_pow]; omega
  · simp [BitVec.extractLsb'_toNat, Nat.shiftRight_eq_div_pow]

theorem be64_ofNat (n : Nat) :
    be64 (BitVec.ofNat 64 n) = [BitVec.ofNat 8 (n / 256 ^ 7), BitVec.ofNat 8 (n / 256 ^ 6), BitVec.ofNat 8 (n / 256 ^ 5),
      BitVec.ofNat 8 (n / 256 ^ 4), BitVec.ofNat 8 (n / 256 ^ 3), BitVec.ofNat 8 (n / 256 ^ 2), BitVec.ofNat 8 (n / 256),
      BitVec.ofNat 8 n] := by
  simp only [be64, List.cons.injEq, and_true]
  refine ⟨?_, ?_, ?_, ?_, ?_, ?_, ?_, ?_⟩ <;> apply BitVec.eq_of_toNat_eq <;>
    simp [BitVec.extractLsb'_toNat, Nat.shiftRight_eq_div_pow] <;> omega

/-! ### The outbound length -/

theorem shortestLength_toNat {n : Nat} (h : n < 2 ^ 64) : (shortestLength n).toNat = n := by
  unfold shortestLength
  split
  · simp [LengthField.toNat]; omega
  · split
    · simp [LengthField.toNat]; omega
    · simp [LengthField.toNat]; omega

end Sys2Proof
end

