-- ==== Sys2Proof/Laws/State.lean ====
section
/-! SUPPORT. Laws/State.lean: one small lemma per named update and field it touches or keeps, each true by `rfl`, so that later
proofs do not unfold a record update. -/

namespace Sys2Proof.Machine

variable (s : State)

@[simp] theorem reset_state : State.reset.state = .awaitHeader := rfl
@[simp] theorem reset_ended : State.reset.ended = false := rfl
@[simp] theorem reset_request : State.reset.request = none := rfl
@[simp] theorem reset_inTransaction : State.reset.inTransaction = false := rfl
@[simp] theorem reset_output : State.reset.output = [] := rfl
@[simp] theorem reset_inputs : State.reset.inputs = [] := rfl

/-! ### `writeHeader` -/

@[simp] theorem writeHeader_state (a : Bool) (b : BitVec 4) (c : Bool) (d : BitVec 7) : (writeHeader a b c d s).state = s.state := rfl
@[simp] theorem writeHeader_fin (a : Bool) (b : BitVec 4) (c : Bool) (d : BitVec 7) : (writeHeader a b c d s).fin = a := rfl
@[simp] theorem writeHeader_opcode (a : Bool) (b : BitVec 4) (c : Bool) (d : BitVec 7) : (writeHeader a b c d s).opcode = b := rfl
@[simp] theorem writeHeader_masked (a : Bool) (b : BitVec 4) (c : Bool) (d : BitVec 7) : (writeHeader a b c d s).masked = c := rfl
@[simp] theorem writeHeader_payloadSizeIndicator (a : Bool) (b : BitVec 4) (c : Bool) (d : BitVec 7) : (writeHeader a b c d s).payloadSizeIndicator = d := rfl
@[simp] theorem writeHeader_framePayloadLength (a : Bool) (b : BitVec 4) (c : Bool) (d : BitVec 7) : (writeHeader a b c d s).framePayloadLength = s.framePayloadLength := rfl
@[simp] theorem writeHeader_totalPayloadLength (a : Bool) (b : BitVec 4) (c : Bool) (d : BitVec 7) : (writeHeader a b c d s).totalPayloadLength = s.totalPayloadLength := rfl
@[simp] theorem writeHeader_maskKey (a : Bool) (b : BitVec 4) (c : Bool) (d : BitVec 7) : (writeHeader a b c d s).maskKey = s.maskKey := rfl
@[simp] theorem writeHeader_fragments (a : Bool) (b : BitVec 4) (c : Bool) (d : BitVec 7) : (writeHeader a b c d s).fragments = s.fragments := rfl
@[simp] theorem writeHeader_framesReceived (a : Bool) (b : BitVec 4) (c : Bool) (d : BitVec 7) : (writeHeader a b c d s).framesReceived = s.framesReceived := rfl
@[simp] theorem writeHeader_pendingChunks (a : Bool) (b : BitVec 4) (c : Bool) (d : BitVec 7) : (writeHeader a b c d s).pendingChunks = s.pendingChunks := rfl
@[simp] theorem writeHeader_bufferedLength (a : Bool) (b : BitVec 4) (c : Bool) (d : BitVec 7) : (writeHeader a b c d s).bufferedLength = s.bufferedLength := rfl
@[simp] theorem writeHeader_ended (a : Bool) (b : BitVec 4) (c : Bool) (d : BitVec 7) : (writeHeader a b c d s).ended = s.ended := rfl
@[simp] theorem writeHeader_output (a : Bool) (b : BitVec 4) (c : Bool) (d : BitVec 7) : (writeHeader a b c d s).output = s.output := rfl
@[simp] theorem writeHeader_inputs (a : Bool) (b : BitVec 4) (c : Bool) (d : BitVec 7) : (writeHeader a b c d s).inputs = s.inputs := rfl
@[simp] theorem writeHeader_inTransaction (a : Bool) (b : BitVec 4) (c : Bool) (d : BitVec 7) : (writeHeader a b c d s).inTransaction = s.inTransaction := rfl
@[simp] theorem writeHeader_encoderLength (a : Bool) (b : BitVec 4) (c : Bool) (d : BitVec 7) : (writeHeader a b c d s).encoderLength = s.encoderLength := rfl
@[simp] theorem writeHeader_request (a : Bool) (b : BitVec 4) (c : Bool) (d : BitVec 7) : (writeHeader a b c d s).request = s.request := rfl

/-! ### `setEnded` -/

@[simp] theorem setEnded_state : (setEnded s).state = s.state := rfl
@[simp] theorem setEnded_fin : (setEnded s).fin = s.fin := rfl
@[simp] theorem setEnded_opcode : (setEnded s).opcode = s.opcode := rfl
@[simp] theorem setEnded_masked : (setEnded s).masked = s.masked := rfl
@[simp] theorem setEnded_payloadSizeIndicator : (setEnded s).payloadSizeIndicator = s.payloadSizeIndicator := rfl
@[simp] theorem setEnded_framePayloadLength : (setEnded s).framePayloadLength = s.framePayloadLength := rfl
@[simp] theorem setEnded_totalPayloadLength : (setEnded s).totalPayloadLength = s.totalPayloadLength := rfl
@[simp] theorem setEnded_maskKey : (setEnded s).maskKey = s.maskKey := rfl
@[simp] theorem setEnded_fragments : (setEnded s).fragments = s.fragments := rfl
@[simp] theorem setEnded_framesReceived : (setEnded s).framesReceived = s.framesReceived := rfl
@[simp] theorem setEnded_pendingChunks : (setEnded s).pendingChunks = s.pendingChunks := rfl
@[simp] theorem setEnded_bufferedLength : (setEnded s).bufferedLength = s.bufferedLength := rfl
@[simp] theorem setEnded_ended : (setEnded s).ended = true := rfl
@[simp] theorem setEnded_output : (setEnded s).output = s.output := rfl
@[simp] theorem setEnded_inputs : (setEnded s).inputs = s.inputs := rfl
@[simp] theorem setEnded_inTransaction : (setEnded s).inTransaction = false := rfl
@[simp] theorem setEnded_encoderLength : (setEnded s).encoderLength = s.encoderLength := rfl
@[simp] theorem setEnded_request : (setEnded s).request = s.request := rfl

/-! ### `appendInput` -/

@[simp] theorem appendInput_state (c : List Byte) : (appendInput c s).state = s.state := rfl
@[simp] theorem appendInput_fin (c : List Byte) : (appendInput c s).fin = s.fin := rfl
@[simp] theorem appendInput_opcode (c : List Byte) : (appendInput c s).opcode = s.opcode := rfl
@[simp] theorem appendInput_masked (c : List Byte) : (appendInput c s).masked = s.masked := rfl
@[simp] theorem appendInput_payloadSizeIndicator (c : List Byte) : (appendInput c s).payloadSizeIndicator = s.payloadSizeIndicator := rfl
@[simp] theorem appendInput_framePayloadLength (c : List Byte) : (appendInput c s).framePayloadLength = s.framePayloadLength := rfl
@[simp] theorem appendInput_totalPayloadLength (c : List Byte) : (appendInput c s).totalPayloadLength = s.totalPayloadLength := rfl
@[simp] theorem appendInput_maskKey (c : List Byte) : (appendInput c s).maskKey = s.maskKey := rfl
@[simp] theorem appendInput_fragments (c : List Byte) : (appendInput c s).fragments = s.fragments := rfl
@[simp] theorem appendInput_framesReceived (c : List Byte) : (appendInput c s).framesReceived = s.framesReceived := rfl
@[simp] theorem appendInput_pendingChunks (c : List Byte) : (appendInput c s).pendingChunks = s.pendingChunks ++ c := rfl
@[simp] theorem appendInput_bufferedLength (c : List Byte) : (appendInput c s).bufferedLength = s.bufferedLength + c.length := rfl
@[simp] theorem appendInput_ended (c : List Byte) : (appendInput c s).ended = s.ended := rfl
@[simp] theorem appendInput_output (c : List Byte) : (appendInput c s).output = s.output := rfl
@[simp] theorem appendInput_inputs (c : List Byte) : (appendInput c s).inputs = s.inputs := rfl
@[simp] theorem appendInput_inTransaction (c : List Byte) : (appendInput c s).inTransaction = s.inTransaction := rfl
@[simp] theorem appendInput_encoderLength (c : List Byte) : (appendInput c s).encoderLength = s.encoderLength := rfl
@[simp] theorem appendInput_request (c : List Byte) : (appendInput c s).request = s.request := rfl

/-! ### `clearInput` -/

@[simp] theorem clearInput_state : (clearInput s).state = s.state := rfl
@[simp] theorem clearInput_fin : (clearInput s).fin = s.fin := rfl
@[simp] theorem clearInput_opcode : (clearInput s).opcode = s.opcode := rfl
@[simp] theorem clearInput_masked : (clearInput s).masked = s.masked := rfl
@[simp] theorem clearInput_payloadSizeIndicator : (clearInput s).payloadSizeIndicator = s.payloadSizeIndicator := rfl
@[simp] theorem clearInput_framePayloadLength : (clearInput s).framePayloadLength = s.framePayloadLength := rfl
@[simp] theorem clearInput_totalPayloadLength : (clearInput s).totalPayloadLength = s.totalPayloadLength := rfl
@[simp] theorem clearInput_maskKey : (clearInput s).maskKey = s.maskKey := rfl
@[simp] theorem clearInput_fragments : (clearInput s).fragments = s.fragments := rfl
@[simp] theorem clearInput_framesReceived : (clearInput s).framesReceived = s.framesReceived := rfl
@[simp] theorem clearInput_pendingChunks : (clearInput s).pendingChunks = [] := rfl
@[simp] theorem clearInput_bufferedLength : (clearInput s).bufferedLength = 0 := rfl
@[simp] theorem clearInput_ended : (clearInput s).ended = s.ended := rfl
@[simp] theorem clearInput_output : (clearInput s).output = s.output := rfl
@[simp] theorem clearInput_inputs : (clearInput s).inputs = s.inputs := rfl
@[simp] theorem clearInput_inTransaction : (clearInput s).inTransaction = s.inTransaction := rfl
@[simp] theorem clearInput_encoderLength : (clearInput s).encoderLength = s.encoderLength := rfl
@[simp] theorem clearInput_request : (clearInput s).request = s.request := rfl

/-! ### `appendFragment` -/

@[simp] theorem appendFragment_state (u : List Byte) : (appendFragment u s).state = s.state := rfl
@[simp] theorem appendFragment_fin (u : List Byte) : (appendFragment u s).fin = s.fin := rfl
@[simp] theorem appendFragment_opcode (u : List Byte) : (appendFragment u s).opcode = s.opcode := rfl
@[simp] theorem appendFragment_masked (u : List Byte) : (appendFragment u s).masked = s.masked := rfl
@[simp] theorem appendFragment_payloadSizeIndicator (u : List Byte) : (appendFragment u s).payloadSizeIndicator = s.payloadSizeIndicator := rfl
@[simp] theorem appendFragment_framePayloadLength (u : List Byte) : (appendFragment u s).framePayloadLength = s.framePayloadLength := rfl
@[simp] theorem appendFragment_totalPayloadLength (u : List Byte) : (appendFragment u s).totalPayloadLength = s.totalPayloadLength := rfl
@[simp] theorem appendFragment_maskKey (u : List Byte) : (appendFragment u s).maskKey = s.maskKey := rfl
@[simp] theorem appendFragment_fragments (u : List Byte) : (appendFragment u s).fragments = s.fragments ++ [u] := rfl
@[simp] theorem appendFragment_framesReceived (u : List Byte) : (appendFragment u s).framesReceived = s.framesReceived := rfl
@[simp] theorem appendFragment_pendingChunks (u : List Byte) : (appendFragment u s).pendingChunks = s.pendingChunks := rfl
@[simp] theorem appendFragment_bufferedLength (u : List Byte) : (appendFragment u s).bufferedLength = s.bufferedLength := rfl
@[simp] theorem appendFragment_ended (u : List Byte) : (appendFragment u s).ended = s.ended := rfl
@[simp] theorem appendFragment_output (u : List Byte) : (appendFragment u s).output = s.output := rfl
@[simp] theorem appendFragment_inputs (u : List Byte) : (appendFragment u s).inputs = s.inputs := rfl
@[simp] theorem appendFragment_inTransaction (u : List Byte) : (appendFragment u s).inTransaction = s.inTransaction := rfl
@[simp] theorem appendFragment_encoderLength (u : List Byte) : (appendFragment u s).encoderLength = s.encoderLength := rfl
@[simp] theorem appendFragment_request (u : List Byte) : (appendFragment u s).request = s.request := rfl

/-! ### `clearFragments` -/

@[simp] theorem clearFragments_state : (clearFragments s).state = s.state := rfl
@[simp] theorem clearFragments_fin : (clearFragments s).fin = s.fin := rfl
@[simp] theorem clearFragments_opcode : (clearFragments s).opcode = s.opcode := rfl
@[simp] theorem clearFragments_masked : (clearFragments s).masked = s.masked := rfl
@[simp] theorem clearFragments_payloadSizeIndicator : (clearFragments s).payloadSizeIndicator = s.payloadSizeIndicator := rfl
@[simp] theorem clearFragments_framePayloadLength : (clearFragments s).framePayloadLength = s.framePayloadLength := rfl
@[simp] theorem clearFragments_totalPayloadLength : (clearFragments s).totalPayloadLength = s.totalPayloadLength := rfl
@[simp] theorem clearFragments_maskKey : (clearFragments s).maskKey = s.maskKey := rfl
@[simp] theorem clearFragments_fragments : (clearFragments s).fragments = [] := rfl
@[simp] theorem clearFragments_framesReceived : (clearFragments s).framesReceived = s.framesReceived := rfl
@[simp] theorem clearFragments_pendingChunks : (clearFragments s).pendingChunks = s.pendingChunks := rfl
@[simp] theorem clearFragments_bufferedLength : (clearFragments s).bufferedLength = s.bufferedLength := rfl
@[simp] theorem clearFragments_ended : (clearFragments s).ended = s.ended := rfl
@[simp] theorem clearFragments_output : (clearFragments s).output = s.output := rfl
@[simp] theorem clearFragments_inputs : (clearFragments s).inputs = s.inputs := rfl
@[simp] theorem clearFragments_inTransaction : (clearFragments s).inTransaction = s.inTransaction := rfl
@[simp] theorem clearFragments_encoderLength : (clearFragments s).encoderLength = s.encoderLength := rfl
@[simp] theorem clearFragments_request : (clearFragments s).request = s.request := rfl

/-! ### `writeOut` -/

@[simp] theorem writeOut_state (v : List Byte) : (writeOut v s).state = s.state := rfl
@[simp] theorem writeOut_fin (v : List Byte) : (writeOut v s).fin = s.fin := rfl
@[simp] theorem writeOut_opcode (v : List Byte) : (writeOut v s).opcode = s.opcode := rfl
@[simp] theorem writeOut_masked (v : List Byte) : (writeOut v s).masked = s.masked := rfl
@[simp] theorem writeOut_payloadSizeIndicator (v : List Byte) : (writeOut v s).payloadSizeIndicator = s.payloadSizeIndicator := rfl
@[simp] theorem writeOut_framePayloadLength (v : List Byte) : (writeOut v s).framePayloadLength = s.framePayloadLength := rfl
@[simp] theorem writeOut_totalPayloadLength (v : List Byte) : (writeOut v s).totalPayloadLength = s.totalPayloadLength := rfl
@[simp] theorem writeOut_maskKey (v : List Byte) : (writeOut v s).maskKey = s.maskKey := rfl
@[simp] theorem writeOut_fragments (v : List Byte) : (writeOut v s).fragments = s.fragments := rfl
@[simp] theorem writeOut_framesReceived (v : List Byte) : (writeOut v s).framesReceived = s.framesReceived := rfl
@[simp] theorem writeOut_pendingChunks (v : List Byte) : (writeOut v s).pendingChunks = s.pendingChunks := rfl
@[simp] theorem writeOut_bufferedLength (v : List Byte) : (writeOut v s).bufferedLength = s.bufferedLength := rfl
@[simp] theorem writeOut_ended (v : List Byte) : (writeOut v s).ended = s.ended := rfl
@[simp] theorem writeOut_output (v : List Byte) : (writeOut v s).output = s.output ++ [.write v] := rfl
@[simp] theorem writeOut_inputs (v : List Byte) : (writeOut v s).inputs = s.inputs := rfl
@[simp] theorem writeOut_inTransaction (v : List Byte) : (writeOut v s).inTransaction = s.inTransaction := rfl
@[simp] theorem writeOut_encoderLength (v : List Byte) : (writeOut v s).encoderLength = s.encoderLength := rfl
@[simp] theorem writeOut_request (v : List Byte) : (writeOut v s).request = s.request := rfl

/-! ### `endConnection` -/

@[simp] theorem endConnection_state : (endConnection s).state = s.state := rfl
@[simp] theorem endConnection_fin : (endConnection s).fin = s.fin := rfl
@[simp] theorem endConnection_opcode : (endConnection s).opcode = s.opcode := rfl
@[simp] theorem endConnection_masked : (endConnection s).masked = s.masked := rfl
@[simp] theorem endConnection_payloadSizeIndicator : (endConnection s).payloadSizeIndicator = s.payloadSizeIndicator := rfl
@[simp] theorem endConnection_framePayloadLength : (endConnection s).framePayloadLength = s.framePayloadLength := rfl
@[simp] theorem endConnection_totalPayloadLength : (endConnection s).totalPayloadLength = s.totalPayloadLength := rfl
@[simp] theorem endConnection_maskKey : (endConnection s).maskKey = s.maskKey := rfl
@[simp] theorem endConnection_fragments : (endConnection s).fragments = s.fragments := rfl
@[simp] theorem endConnection_framesReceived : (endConnection s).framesReceived = s.framesReceived := rfl
@[simp] theorem endConnection_pendingChunks : (endConnection s).pendingChunks = s.pendingChunks := rfl
@[simp] theorem endConnection_bufferedLength : (endConnection s).bufferedLength = s.bufferedLength := rfl
@[simp] theorem endConnection_ended : (endConnection s).ended = true := rfl
@[simp] theorem endConnection_output : (endConnection s).output = s.output ++ [.endConnection] := rfl
@[simp] theorem endConnection_inputs : (endConnection s).inputs = s.inputs := rfl
@[simp] theorem endConnection_inTransaction : (endConnection s).inTransaction = false := rfl
@[simp] theorem endConnection_encoderLength : (endConnection s).encoderLength = s.encoderLength := rfl
@[simp] theorem endConnection_request : (endConnection s).request = s.request := rfl

/-! ### `formLength` -/

@[simp] theorem formLength_state (v : List Byte) : (formLength v s).state = s.state := rfl
@[simp] theorem formLength_fin (v : List Byte) : (formLength v s).fin = s.fin := rfl
@[simp] theorem formLength_opcode (v : List Byte) : (formLength v s).opcode = s.opcode := rfl
@[simp] theorem formLength_masked (v : List Byte) : (formLength v s).masked = s.masked := rfl
@[simp] theorem formLength_payloadSizeIndicator (v : List Byte) : (formLength v s).payloadSizeIndicator = s.payloadSizeIndicator := rfl
@[simp] theorem formLength_framePayloadLength (v : List Byte) : (formLength v s).framePayloadLength = s.framePayloadLength := rfl
@[simp] theorem formLength_totalPayloadLength (v : List Byte) : (formLength v s).totalPayloadLength = s.totalPayloadLength := rfl
@[simp] theorem formLength_maskKey (v : List Byte) : (formLength v s).maskKey = s.maskKey := rfl
@[simp] theorem formLength_fragments (v : List Byte) : (formLength v s).fragments = s.fragments := rfl
@[simp] theorem formLength_framesReceived (v : List Byte) : (formLength v s).framesReceived = s.framesReceived := rfl
@[simp] theorem formLength_pendingChunks (v : List Byte) : (formLength v s).pendingChunks = s.pendingChunks := rfl
@[simp] theorem formLength_bufferedLength (v : List Byte) : (formLength v s).bufferedLength = s.bufferedLength := rfl
@[simp] theorem formLength_ended (v : List Byte) : (formLength v s).ended = s.ended := rfl
@[simp] theorem formLength_output (v : List Byte) : (formLength v s).output = s.output := rfl
@[simp] theorem formLength_inputs (v : List Byte) : (formLength v s).inputs = s.inputs := rfl
@[simp] theorem formLength_inTransaction (v : List Byte) : (formLength v s).inTransaction = s.inTransaction := rfl
@[simp] theorem formLength_encoderLength (v : List Byte) : (formLength v s).encoderLength = v := rfl
@[simp] theorem formLength_request (v : List Byte) : (formLength v s).request = s.request := rfl

/-! ### `perMessageReset` -/

@[simp] theorem perMessageReset_state : (perMessageReset s).state = .awaitHeader := rfl
@[simp] theorem perMessageReset_fin : (perMessageReset s).fin = false := rfl
@[simp] theorem perMessageReset_opcode : (perMessageReset s).opcode = 0 := rfl
@[simp] theorem perMessageReset_masked : (perMessageReset s).masked = false := rfl
@[simp] theorem perMessageReset_payloadSizeIndicator : (perMessageReset s).payloadSizeIndicator = 0 := rfl
@[simp] theorem perMessageReset_framePayloadLength : (perMessageReset s).framePayloadLength = 0 := rfl
@[simp] theorem perMessageReset_totalPayloadLength : (perMessageReset s).totalPayloadLength = 0 := rfl
@[simp] theorem perMessageReset_maskKey : (perMessageReset s).maskKey = zeroKey := rfl
@[simp] theorem perMessageReset_fragments : (perMessageReset s).fragments = [] := rfl
@[simp] theorem perMessageReset_framesReceived : (perMessageReset s).framesReceived = 0 := rfl
@[simp] theorem perMessageReset_pendingChunks : (perMessageReset s).pendingChunks = s.pendingChunks := rfl
@[simp] theorem perMessageReset_bufferedLength : (perMessageReset s).bufferedLength = s.bufferedLength := rfl
@[simp] theorem perMessageReset_ended : (perMessageReset s).ended = s.ended := rfl
@[simp] theorem perMessageReset_output : (perMessageReset s).output = s.output := rfl
@[simp] theorem perMessageReset_inputs : (perMessageReset s).inputs = s.inputs := rfl
@[simp] theorem perMessageReset_inTransaction : (perMessageReset s).inTransaction = s.inTransaction := rfl
@[simp] theorem perMessageReset_encoderLength : (perMessageReset s).encoderLength = s.encoderLength := rfl
@[simp] theorem perMessageReset_request : (perMessageReset s).request = s.request := rfl

/-! ### `fullReset` -/

@[simp] theorem fullReset_state : (fullReset s).state = .awaitHeader := rfl
@[simp] theorem fullReset_fin : (fullReset s).fin = false := rfl
@[simp] theorem fullReset_opcode : (fullReset s).opcode = 0 := rfl
@[simp] theorem fullReset_masked : (fullReset s).masked = false := rfl
@[simp] theorem fullReset_payloadSizeIndicator : (fullReset s).payloadSizeIndicator = 0 := rfl
@[simp] theorem fullReset_framePayloadLength : (fullReset s).framePayloadLength = 0 := rfl
@[simp] theorem fullReset_totalPayloadLength : (fullReset s).totalPayloadLength = 0 := rfl
@[simp] theorem fullReset_maskKey : (fullReset s).maskKey = zeroKey := rfl
@[simp] theorem fullReset_fragments : (fullReset s).fragments = [] := rfl
@[simp] theorem fullReset_framesReceived : (fullReset s).framesReceived = 0 := rfl
@[simp] theorem fullReset_pendingChunks : (fullReset s).pendingChunks = [] := rfl
@[simp] theorem fullReset_bufferedLength : (fullReset s).bufferedLength = 0 := rfl
@[simp] theorem fullReset_ended : (fullReset s).ended = s.ended := rfl
@[simp] theorem fullReset_output : (fullReset s).output = s.output := rfl
@[simp] theorem fullReset_inputs : (fullReset s).inputs = s.inputs := rfl
@[simp] theorem fullReset_inTransaction : (fullReset s).inTransaction = s.inTransaction := rfl
@[simp] theorem fullReset_encoderLength : (fullReset s).encoderLength = s.encoderLength := rfl
@[simp] theorem fullReset_request : (fullReset s).request = s.request := rfl

end Sys2Proof.Machine
end

