-- ==== Sys2Proof/Laws/Ops.lean ====
section
/-! SUPPORT. Laws/Ops.lean: one lemma for each shared operation that says once what it answers, for later proofs to cite. -/

namespace Sys2Proof.Machine

/-! ### Parameters -/

theorem config_maxMessageSize : config.maxMessageSize = 1048576 := rfl

/-- The queue has no bound, so `append` never fails (R62). -/
theorem config_inputQueueCapacity : config.inputQueueCapacity = none := rfl

/-- The registers of State have the widths of the parameter record. -/
theorem register_widths :
    Length = BitVec config.framePayloadLengthBits ∧ Length = BitVec config.totalPayloadLengthBits ∧
    BitVec 32 = BitVec config.framesReceivedBits := ⟨rfl, rfl, rfl⟩

theorem framePayloadLength_lt (s : State) : s.framePayloadLength.toNat < 2 ^ config.framePayloadLengthBits :=
  s.framePayloadLength.isLt

theorem totalPayloadLength_lt (s : State) : s.totalPayloadLength.toNat < 2 ^ config.totalPayloadLengthBits :=
  s.totalPayloadLength.isLt

theorem framesReceived_lt (s : State) : s.framesReceived.toNat < 2 ^ config.framesReceivedBits :=
  s.framesReceived.isLt

/-- The encoding of `state` reads back (R22). -/
theorem stateOfCode_stateCode (st : DecoderState) : stateOfCode (stateCode st) = some st := by
  cases st <;> rfl

/-! ### The queue -/

/-- The state after the first `n` bytes have left the queue. -/
theorem consume_eq_some {n : Nat} {s t : State} {b : List Byte} :
    consume n s = some (b, t) ↔
      n ≤ s.bufferedLength ∧ n ≤ s.pendingChunks.length ∧ b = s.pendingChunks.take n ∧
      t = { s with pendingChunks := s.pendingChunks.drop n, bufferedLength := s.bufferedLength - n } := by
  unfold consume
  split
  · simp; omega
  · simp only [Option.some.injEq, Prod.mk.injEq]
    constructor
    · rintro ⟨rfl, rfl⟩; exact ⟨by omega, by omega, rfl, rfl⟩
    · rintro ⟨_, _, rfl, rfl⟩; exact ⟨rfl, rfl⟩

/-- With bytes `r` at the front of a queue whose count is right, an action that needs `r.length` bytes gets `r`. -/
theorem awaitBytes_of_front {r q : List Byte} {s : State} (k : List Byte → State → Result)
    (hq : s.pendingChunks = r ++ q) (hn : s.bufferedLength = s.pendingChunks.length) :
    awaitBytes r.length s k = k r { s with pendingChunks := q, bufferedLength := q.length } := by
  simp [awaitBytes, available, takeBytes, consume, hn, hq]

/-- With too few bytes counted, an action suspends. -/
theorem awaitBytes_of_short {n : Nat} {s : State} (k : List Byte → State → Result) (h : s.bufferedLength < n) :
    awaitBytes n s k = .next { s with inTransaction := false } := by
  simp [awaitBytes, available, suspend, h]

/-- Everything `awaitBytes` can do when it answers a next state: suspend, or consume and go on. -/
theorem awaitBytes_cases {n : Nat} {s t : State} {k : List Byte → State → Result}
    (h : awaitBytes n s k = .next t) :
    (s.bufferedLength < n ∧ t = { s with inTransaction := false }) ∨
    (n ≤ s.bufferedLength ∧ n ≤ s.pendingChunks.length ∧
      k (s.pendingChunks.take n)
        { s with pendingChunks := s.pendingChunks.drop n, bufferedLength := s.bufferedLength - n } = .next t) := by
  unfold awaitBytes takeBytes available suspend at h
  split at h
  · rename_i hlt
    simp only [Host.Outcome.next.injEq] at h
    exact .inl ⟨hlt, h.symm⟩
  · split at h
    · cases h
    · rename_i hc
      obtain ⟨h1, h2, rfl, rfl⟩ := consume_eq_some.1 hc
      exact .inr ⟨h1, h2, h⟩

/-- With the queue's count right, `awaitBytes` answers as its continuation does. -/
theorem awaitBytes_total {n : Nat} {s : State} {k : List Byte → State → Result}
    (hn : s.bufferedLength = s.pendingChunks.length) (hk : ∀ b s', ∃ t, k b s' = .next t) :
    ∃ t, awaitBytes n s k = .next t := by
  unfold awaitBytes takeBytes available suspend consume
  split
  · exact ⟨_, rfl⟩
  · rename_i h
    rw [if_neg (by omega)]
    exact hk _ _

/-- The guard of an ended instance. -/
theorem whenLive_live {s : State} (r : Result) (h : s.ended = false) : whenLive s r = r := by
  simp [whenLive, h]

theorem whenLive_ended {s : State} (r : Result) (h : s.ended = true) : whenLive s r = .next s := by
  simp [whenLive, h]

theorem whenLive_cases {s t : State} {r : Result} (h : whenLive s r = .next t) :
    (s.ended = true ∧ t = s) ∨ (s.ended = false ∧ r = .next t) := by
  unfold whenLive at h
  split at h
  · rename_i he
    simp only [Host.Outcome.next.injEq] at h
    exact .inl ⟨he, h.symm⟩
  · rename_i he
    exact .inr ⟨by simpa using he, h⟩

/-! ### The codec -/

@[simp] theorem unmaskFrom_length (key : MaskKey) (i : Nat) (p : List Byte) :
    (unmaskFrom key i p).length = p.length := by
  induction p generalizing i with
  | nil => rfl
  | cons b bs ih => simp [unmaskFrom, ih]

@[simp] theorem unmask_length (p : List Byte) (key : MaskKey) : (unmask p key).length = p.length :=
  unmaskFrom_length key 0 p

@[simp] theorem unmask_eq_nil {p : List Byte} {key : MaskKey} : unmask p key = [] ↔ p = [] := by
  rw [← List.length_eq_zero_iff, unmask_length, List.length_eq_zero_iff]

/-! ### Lengths -/

theorem overCap_eq_true {t len : Length} : overCap t len = true ↔ 1048576 < t.toNat + len.toNat :=
  decide_eq_true_iff

theorem overCap_eq_false {t len : Length} : overCap t len = false ↔ t.toNat + len.toNat ≤ 1048576 :=
  decide_eq_false_iff_not.trans Nat.not_lt

/-- Within the cap the 64-bit sum is the natural sum. -/
theorem add_toNat_of_le {t len : Length} (h : t.toNat + len.toNat ≤ 1048576) :
    (t + len).toNat = t.toNat + len.toNat := by
  rw [BitVec.toNat_add]; omega

/-! ### Endings -/

/-- Everything `raise Close` does (R250). -/
theorem raiseClose_eq (code : Word) (reason : List Byte) (s : State) :
    raiseClose code reason s =
      { State.reset with
        ended := true
        output := s.output ++ [.write (encodeClose code reason), .endConnection]
        inputs := s.inputs
        encoderLength := txLengthField (closePayload code reason).length
        request := s.request } := by
  simp [raiseClose, fullReset, perMessageReset, clearFragments, clearInput, setEnded, sendClose, endConnection,
    writeFrame, writeOut, formLength, encodeClose, State.reset]

/-- Everything a going-away close does (R169). -/
theorem goAway_eq (s : State) :
    goAway s =
      { State.reset with
        ended := true
        output := s.output ++ [.endConnection]
        inputs := s.inputs
        encoderLength := s.encoderLength
        request := s.request } := by
  rfl

/-- Everything the end of a message does (R125). -/
theorem completeMessage_eq (s : State) :
    completeMessage s =
      { State.reset with
        pendingChunks := s.pendingChunks
        bufferedLength := s.bufferedLength
        ended := s.ended
        output := s.output ++ [.write (encodeFrame 0x2 s.fragments.flatten)]
        inputs := s.inputs
        inTransaction := s.inTransaction
        encoderLength := txLengthField s.fragments.flatten.length
        request := s.request } := by
  rfl

/-- Every path of the close handler ends the session: the next state is that of `raise Close` or of a going-away close. -/
theorem handleClose_cases (s : State) :
    handleClose s = raiseNoStatus s ∨ handleClose s = goAway s ∨
      ∃ code, handleClose s = raiseClose code config.reasonFarewell s := by
  unfold handleClose
  split
  · exact .inl rfl
  · split
    · exact .inl rfl
    · split
      · exact .inr (.inl rfl)
      · exact .inr (.inr ⟨_, rfl⟩)

/-- What AWAIT_LENGTH does once the length is known: TOO_BIG, or both lengths are written (R122). -/
theorem resolveLength_cases (len : Length) (s : State) :
    (1048576 < s.totalPayloadLength.toNat + len.toNat ∧
      resolveLength len s = raiseTooBig { s with framePayloadLength := len }) ∨
    (s.totalPayloadLength.toNat + len.toNat ≤ 1048576 ∧
      resolveLength len s = { s with
        framePayloadLength := len
        totalPayloadLength := s.totalPayloadLength + len
        state := .awaitMaskKey }) := by
  unfold resolveLength
  cases h : overCap s.totalPayloadLength len
  · exact .inr ⟨overCap_eq_false.1 h, by simp⟩
  · exact .inl ⟨overCap_eq_true.1 h, by simp⟩

/-- Storing a payload: an empty one is counted alone (R124, R151). -/
theorem storePayload_eq (u : List Byte) (s : State) :
    storePayload u s = { s with
      fragments := if u = [] then s.fragments else s.fragments ++ [u]
      framesReceived := s.framesReceived + 1 } := by
  unfold storePayload
  split <;> simp [appendFragment]

/-! ### The outbound length field -/

/-- The length field the encoder forms is the code of the shortest form (R99). -/
theorem txLengthField_eq (n : Nat) : txLengthField n = encodeLengthField (shortestLength n) := by
  unfold encodeLengthField shortestLength txLengthField
  split
  · rfl
  · split <;> rfl

end Sys2Proof.Machine
end

