-- ==== Sys2Proof/Laws/Memory.lean ====
section
/-! SUPPORT. Laws/Memory.lean: every operation over the block's stores keeps their canonical form, and session creation has
it (spec/10_state.md R40 INV3, INV4). -/

namespace Sys2Proof.Machine

theorem memory_wf_iff (s : State) :
    Memory.wf s = true ↔ s.bufferedLength = s.pendingChunks.length ∧ ∀ u ∈ s.fragments, u ≠ [] := by
  simp [Memory.wf]

theorem memory_wf_reset : Memory.wf State.reset = true := rfl

/-- The form is a matter of the queue, its count and the fragments alone. -/
theorem memory_wf_congr {s t : State} (h : Memory.wf s = true) (h1 : t.pendingChunks = s.pendingChunks)
    (h2 : t.bufferedLength = s.bufferedLength) (h3 : t.fragments = s.fragments) : Memory.wf t = true := by
  rw [memory_wf_iff] at *; rw [h1, h2, h3]; exact h

theorem memory_wf_of_no_fragments {s : State} (h1 : s.bufferedLength = s.pendingChunks.length)
    (h2 : s.fragments = []) : Memory.wf s = true := by
  rw [memory_wf_iff]; exact ⟨h1, by simp [h2]⟩

/-! ### The queue -/

theorem appendInput_keeps_wf (chunk : List Byte) {s : State} (h : Memory.wf s = true) :
    Memory.wf (appendInput chunk s) = true := by
  rw [memory_wf_iff] at *
  exact ⟨by simp [appendInput, h.1], h.2⟩

theorem consume_keeps_wf {n : Nat} {s t : State} {b : List Byte} (h : Memory.wf s = true)
    (hc : consume n s = some (b, t)) : Memory.wf t = true := by
  obtain ⟨_, _, rfl, rfl⟩ := consume_eq_some.1 hc
  rw [memory_wf_iff] at *
  exact ⟨by simp [h.1], h.2⟩

theorem clearInput_keeps_wf {s : State} (h : Memory.wf s = true) : Memory.wf (clearInput s) = true := by
  rw [memory_wf_iff] at *; exact ⟨rfl, h.2⟩

/-! ### The fragments -/

theorem appendFragment_keeps_wf {u : List Byte} {s : State} (hu : u ≠ []) (h : Memory.wf s = true) :
    Memory.wf (appendFragment u s) = true := by
  rw [memory_wf_iff] at *
  refine ⟨h.1, fun v hv => ?_⟩
  simp only [appendFragment, List.mem_append, List.mem_singleton] at hv
  rcases hv with hv | rfl
  · exact h.2 v hv
  · exact hu

theorem clearFragments_keeps_wf {s : State} (h : Memory.wf s = true) : Memory.wf (clearFragments s) = true := by
  rw [memory_wf_iff] at *; exact ⟨h.1, by simp [clearFragments]⟩

theorem storePayload_keeps_wf (u : List Byte) {s : State} (h : Memory.wf s = true) :
    Memory.wf (storePayload u s) = true := by
  unfold storePayload
  by_cases hu : u = []
  · rw [if_pos hu]; exact memory_wf_congr h rfl rfl rfl
  · rw [if_neg hu]; exact memory_wf_congr (appendFragment_keeps_wf hu h) rfl rfl rfl

/-! ### The output and the resets -/

theorem writeFrame_keeps_wf (op : BitVec 4) (v : List Byte) {s : State} (h : Memory.wf s = true) :
    Memory.wf (writeFrame op v s) = true := memory_wf_congr h rfl rfl rfl

theorem endConnection_keeps_wf {s : State} (h : Memory.wf s = true) : Memory.wf (endConnection s) = true :=
  memory_wf_congr h rfl rfl rfl

theorem perMessageReset_keeps_wf {s : State} (h : Memory.wf s = true) : Memory.wf (perMessageReset s) = true :=
  memory_wf_of_no_fragments ((memory_wf_iff s).1 h).1 rfl

theorem fullReset_wf (s : State) : Memory.wf (fullReset s) = true := memory_wf_of_no_fragments rfl rfl

/-! ### The endings, and the work shared by actions and frames -/

theorem raiseClose_wf (code : Word) (reason : List Byte) (s : State) : Memory.wf (raiseClose code reason s) = true := by
  rw [raiseClose_eq]; exact memory_wf_of_no_fragments rfl rfl

theorem goAway_wf (s : State) : Memory.wf (goAway s) = true := memory_wf_of_no_fragments rfl rfl

theorem handleClose_wf (s : State) : Memory.wf (handleClose s) = true := by
  rcases handleClose_cases s with h | h | ⟨c, h⟩ <;> rw [h]
  · exact raiseClose_wf _ _ _
  · exact goAway_wf s
  · exact raiseClose_wf _ _ _

theorem completeMessage_keeps_wf {s : State} (h : Memory.wf s = true) : Memory.wf (completeMessage s) = true := by
  rw [completeMessage_eq]; exact memory_wf_of_no_fragments ((memory_wf_iff s).1 h).1 rfl

theorem resolveLength_keeps_wf (len : Length) {s : State} (h : Memory.wf s = true) :
    Memory.wf (resolveLength len s) = true := by
  rcases resolveLength_cases len s with ⟨_, h'⟩ | ⟨_, h'⟩ <;> rw [h']
  · exact raiseClose_wf _ _ _
  · exact memory_wf_congr h rfl rfl rfl

theorem bytesReceived_keeps_wf (chunk : List Byte) {s : State} (h : Memory.wf s = true) :
    Memory.wf (bytesReceived chunk s) = true := by
  unfold bytesReceived
  split
  · exact h
  · exact memory_wf_congr (appendInput_keeps_wf chunk h) rfl rfl rfl

theorem streamClosed_keeps_wf {s : State} (h : Memory.wf s = true) : Memory.wf (streamClosed s) = true := by
  unfold streamClosed
  split
  · exact h
  · exact memory_wf_of_no_fragments rfl rfl

end Sys2Proof.Machine
end

