-- ==== Sys2Proof/Laws/PerInstr.lean ====
section
/-! SUPPORT. Laws/PerInstr.lean: statements made for each instruction. The family TableRow: the code of a well-formed operation
matches its row of spec/opcode_table.json, whose mask and match are copied here. -/

namespace Sys2Proof.Laws.TableRow

/-- The mask of the operation's row, to 16 bits. -/
def mask : Instr → BitVec 16
  | .rxOp0 _ => 0x0F80
  | .rxText _ => 0x0F80
  | .rxBinary _ => 0x0F80
  | .rxOp3 _ => 0x0F80
  | .rxOp4 _ => 0x0F80
  | .rxOp5 _ => 0x0F80
  | .rxOp6 _ => 0x0F80
  | .rxOp7 _ => 0x0F80
  | .rxClose _ => 0x0F80
  | .rxPing _ => 0x0F80
  | .rxPong _ => 0x0F80
  | .rxOpB _ => 0x0F80
  | .rxOpC _ => 0x0F80
  | .rxOpD _ => 0x0F80
  | .rxOpE _ => 0x0F80
  | .rxOpF _ => 0x0F80
  | .rxUnmasked _ => 0x0080
  | .lenLen7 _ => 0x0000
  | .lenLen16 _ => 0x007F
  | .lenLen64 _ => 0x007F
  | .txlenLen7 _ => 0x0000
  | .txlenLen16 _ => 0x007F
  | .txlenLen64 _ => 0x007F
  | .txEcho _ => 0xFF80
  | .txClose _ _ => 0xFF80
  | .fsmAwaitHeader => 0x0007
  | .fsmAwaitLength => 0x0007
  | .fsmAwaitMaskKey => 0x0007
  | .fsmAwaitPayload => 0x0007
  | .fsmClosePending => 0x0007
  | .fsmComplete => 0x0007

/-- The match of the operation's row, to 16 bits. -/
def pattern : Instr → BitVec 16
  | .rxOp0 _ => 0x0080
  | .rxText _ => 0x0180
  | .rxBinary _ => 0x0280
  | .rxOp3 _ => 0x0380
  | .rxOp4 _ => 0x0480
  | .rxOp5 _ => 0x0580
  | .rxOp6 _ => 0x0680
  | .rxOp7 _ => 0x0780
  | .rxClose _ => 0x0880
  | .rxPing _ => 0x0980
  | .rxPong _ => 0x0A80
  | .rxOpB _ => 0x0B80
  | .rxOpC _ => 0x0C80
  | .rxOpD _ => 0x0D80
  | .rxOpE _ => 0x0E80
  | .rxOpF _ => 0x0F80
  | .rxUnmasked _ => 0x0000
  | .lenLen7 _ => 0x0000
  | .lenLen16 _ => 0x007E
  | .lenLen64 _ => 0x007F
  | .txlenLen7 _ => 0x0000
  | .txlenLen16 _ => 0x007E
  | .txlenLen64 _ => 0x007F
  | .txEcho _ => 0x8200
  | .txClose _ _ => 0x8800
  | .fsmAwaitHeader => 0x0000
  | .fsmAwaitLength => 0x0001
  | .fsmAwaitMaskKey => 0x0002
  | .fsmAwaitPayload => 0x0003
  | .fsmClosePending => 0x0004
  | .fsmComplete => 0x0003

/-- The number the row is matched on (R108): two bytes of a frame, or the one byte of a length indicator or of `state`. -/
def word (i : Instr) : BitVec 16 :=
  match i.port with
  | .rx | .tx => byteAt (encode i) 0 ++ byteAt (encode i) 1
  | .len | .txlen | .fsm => 0#8 ++ byteAt (encode i) 0

/-- The code matches the row. -/
def Statement (i : Instr) : Prop := i.wf = true → word i &&& mask i = pattern i

theorem rx_word (f : Bool) (r : BitVec 3) (op : BitVec 4) (p : BitVec 7) :
    ((headerByte0 f r op ++ headerByte1 true p : BitVec 16) &&& 0x0F80) = (0#4 ++ op) ++ 0x80#8 := by
  have h0 : headerByte0 f r op &&& 0x0F#8 = 0#4 ++ op := by revert f r op; decide
  have h1 : headerByte1 true p &&& 0x80#8 = 0x80#8 := by revert p; decide
  have hm : (0x0F80 : BitVec 16) = 0x0F#8 ++ 0x80#8 := rfl
  rw [hm, BitVec.and_append, h0, h1]

theorem unmasked_word (b : Byte) (p : BitVec 7) :
    ((b ++ headerByte1 false p : BitVec 16) &&& 0x0080) = 0 := by
  have h1 : headerByte1 false p &&& 0x80#8 = 0#8 := by revert p; decide
  have h0 : b &&& 0#8 = 0#8 := BitVec.and_zero
  have hm : (0x0080 : BitVec 16) = 0#8 ++ 0x80#8 := rfl
  rw [hm, BitVec.and_append, h0, h1]
  rfl

theorem tx_word (b : Byte) (p : BitVec 7) :
    ((b ++ headerByte1 false p : BitVec 16) &&& 0xFF80) = b ++ 0#8 := by
  have h1 : headerByte1 false p &&& 0x80#8 = 0#8 := by revert p; decide
  have h0 : b &&& 0xFF#8 = b := by revert b; decide
  have hm : (0xFF80 : BitVec 16) = 0xFF#8 ++ 0x80#8 := rfl
  rw [hm, BitVec.and_append, h0, h1]

theorem rxOp0 (f : RxFrame) : Statement (.rxOp0 f) := fun _ => rx_word _ _ _ _
theorem rxText (f : RxFrame) : Statement (.rxText f) := fun _ => rx_word _ _ _ _
theorem rxBinary (f : RxFrame) : Statement (.rxBinary f) := fun _ => rx_word _ _ _ _
theorem rxOp3 (f : RxFrame) : Statement (.rxOp3 f) := fun _ => rx_word _ _ _ _
theorem rxOp4 (f : RxFrame) : Statement (.rxOp4 f) := fun _ => rx_word _ _ _ _
theorem rxOp5 (f : RxFrame) : Statement (.rxOp5 f) := fun _ => rx_word _ _ _ _
theorem rxOp6 (f : RxFrame) : Statement (.rxOp6 f) := fun _ => rx_word _ _ _ _
theorem rxOp7 (f : RxFrame) : Statement (.rxOp7 f) := fun _ => rx_word _ _ _ _
theorem rxClose (f : RxFrame) : Statement (.rxClose f) := fun _ => rx_word _ _ _ _
theorem rxPing (h : RxHeader) : Statement (.rxPing h) := fun _ => rx_word _ _ _ _
theorem rxPong (h : RxHeader) : Statement (.rxPong h) := fun _ => rx_word _ _ _ _
theorem rxOpB (f : RxFrame) : Statement (.rxOpB f) := fun _ => rx_word _ _ _ _
theorem rxOpC (f : RxFrame) : Statement (.rxOpC f) := fun _ => rx_word _ _ _ _
theorem rxOpD (f : RxFrame) : Statement (.rxOpD f) := fun _ => rx_word _ _ _ _
theorem rxOpE (f : RxFrame) : Statement (.rxOpE f) := fun _ => rx_word _ _ _ _
theorem rxOpF (f : RxFrame) : Statement (.rxOpF f) := fun _ => rx_word _ _ _ _
theorem rxUnmasked (h : UnmaskedHeader) : Statement (.rxUnmasked h) := fun _ => unmasked_word _ _
theorem lenLen7 (v : BitVec 7) : Statement (.lenLen7 v) := fun _ => BitVec.and_zero
theorem lenLen16 (v : BitVec 16) : Statement (.lenLen16 v) := fun _ => by
  show ((0#8 ++ headerByte1 false 126 : BitVec 16) &&& 0x007F) = 0x007E; decide
theorem lenLen64 (v : BitVec 64) : Statement (.lenLen64 v) := fun _ => by
  show ((0#8 ++ headerByte1 false 127 : BitVec 16) &&& 0x007F) = 0x007F; decide
theorem txlenLen7 (n : BitVec 7) : Statement (.txlenLen7 n) := fun _ => BitVec.and_zero
theorem txlenLen16 (n : BitVec 16) : Statement (.txlenLen16 n) := fun _ => by
  show ((0#8 ++ headerByte1 false 126 : BitVec 16) &&& 0x007F) = 0x007E; decide
theorem txlenLen64 (n : BitVec 64) : Statement (.txlenLen64 n) := fun _ => by
  show ((0#8 ++ headerByte1 false 127 : BitVec 16) &&& 0x007F) = 0x007F; decide
theorem txEcho (m : List Byte) : Statement (.txEcho m) := fun _ =>
  tx_word 0x82 (lengthIndicator (shortestLength m.length))
theorem txClose (code : Word) (reason : List Byte) : Statement (.txClose code reason) := fun _ =>
  tx_word 0x88 (lengthIndicator (shortestLength (reason.length + 2)))
theorem fsmAwaitHeader : Statement .fsmAwaitHeader := fun _ => by decide
theorem fsmAwaitLength : Statement .fsmAwaitLength := fun _ => by decide
theorem fsmAwaitMaskKey : Statement .fsmAwaitMaskKey := fun _ => by decide
theorem fsmAwaitPayload : Statement .fsmAwaitPayload := fun _ => by decide
theorem fsmClosePending : Statement .fsmClosePending := fun _ => by decide
theorem fsmComplete : Statement .fsmComplete := fun _ => by decide

end Sys2Proof.Laws.TableRow
end

