-- ==== Sys2Proof/Laws/Step.lean ====
section
/-! SUPPORT. Laws/Step.lean: what a step can do, said once; and how the whole frames and the actions reach the shared
operations. Later proofs cite these and do not unfold `step`, `receiveFrame` or an action. -/

namespace Sys2Proof.Machine

/-! ### Steps -/

/-- The action of a value of `state` (R120). -/
def actionOf : DecoderState → Instr
  | .awaitHeader  => .fsmAwaitHeader
  | .awaitLength  => .fsmAwaitLength
  | .awaitMaskKey => .fsmAwaitMaskKey
  | .awaitPayload => .fsmAwaitPayload
  | .closePending => .fsmClosePending

theorem decode_stateCode (st : DecoderState) : decode .fsm [stateCode st] = .ok (actionOf st, []) := by
  cases st <;> rfl

/-- Inside a transaction of a live session a step is the action of `state`. -/
theorem step_of_live {s : State} (hr : s.request = none) (ht : s.inTransaction = true) (he : s.ended = false) :
    step s = exec (actionOf s.state) s := by
  simp [step, fetch, hr, ht, he, decode_stateCode]

/-- Everything a step of a session can do: an action; the loop returns on `ended`; nothing; one input event. -/
theorem step_cases {s t : State} (hr : s.request = none) (h : step s = .next t) :
    (s.inTransaction = true ∧ s.ended = false ∧ exec (actionOf s.state) s = .next t) ∨
    (s.inTransaction = true ∧ s.ended = true ∧ t = { s with inTransaction := false }) ∨
    (s.inTransaction = false ∧ s.inputs = [] ∧ t = s) ∨
    (∃ e later, s.inTransaction = false ∧ s.inputs = e :: later ∧ t = takeEvent e { s with inputs := later }) := by
  by_cases h1 : s.inTransaction = true ∧ s.ended = false
  · exact .inl ⟨h1.1, h1.2, by rw [← step_of_live hr h1.1 h1.2]; exact h⟩
  · have hs : step s = .next (idle s) := by simp [step, fetch, hr, h1]
    rw [hs, Host.Outcome.next.injEq] at h
    subst h
    unfold idle
    by_cases h2 : s.inTransaction = true
    · rw [if_pos h2]; exact .inr (.inl ⟨h2, by simpa [h2] using h1, rfl⟩)
    · rw [if_neg h2]
      have h2 : s.inTransaction = false := by simpa using h2
      cases hin : s.inputs with
      | nil => exact .inr (.inr (.inl ⟨h2, rfl, rfl⟩))
      | cons e later => exact .inr (.inr (.inr ⟨e, later, h2, rfl, rfl⟩))

/-- A step with an operation at the model's own port: the port's decoder answers, and the operation runs. -/
theorem step_of_request {p : Port} {code : List Byte} {s t : State} (hr : s.request = some (p, code))
    (h : step s = .next t) :
    ∃ i rest, decode p code = .ok (i, rest) ∧ exec i { s with request := none } = .next t := by
  unfold step fetch at h
  rw [hr] at h
  dsimp only at h
  cases hd : decode p code with
  | error e => rw [hd] at h; cases h
  | ok x => rw [hd] at h; exact ⟨x.1, x.2, rfl, h⟩

theorem takeEvent_ended (e : InputEvent) {s : State} (h : s.ended = true) : takeEvent e s = s := by
  cases e <;> simp [takeEvent, bytesReceived, streamClosed, h]

theorem takeEvent_output (e : InputEvent) (s : State) : (takeEvent e s).output = s.output := by
  cases e <;> unfold takeEvent <;> dsimp only
  · unfold bytesReceived; split <;> rfl
  · unfold streamClosed; split <;> rfl

theorem takeEvent_request (e : InputEvent) (s : State) : (takeEvent e s).request = s.request := by
  cases e <;> unfold takeEvent <;> dsimp only
  · unfold bytesReceived; split <;> rfl
  · unfold streamClosed; split <;> rfl

theorem takeEvent_keeps_wf (e : InputEvent) {s : State} (h : Memory.wf s = true) :
    Memory.wf (takeEvent e s) = true := by
  cases e
  · exact bytesReceived_keeps_wf _ h
  · exact streamClosed_keeps_wf h

/-! ### The actions, past their guards -/

theorem whenLive_total {s : State} {r : Result} (h : ∃ t, r = .next t) : ∃ t, whenLive s r = .next t := by
  unfold whenLive
  split
  · exact ⟨_, rfl⟩
  · exact h

/-- AWAIT_HEADER with two bytes at the front of the queue. -/
theorem execFsmAwaitHeader_of_front (b0 b1 : Byte) (q : List Byte) (s : State) (hs : s.ended = false)
    (hq : s.pendingChunks = b0 :: b1 :: q) (hn : s.bufferedLength = s.pendingChunks.length) :
    execFsmAwaitHeader s =
      (let s2 := latchHeader [b0, b1] { s with pendingChunks := q, bufferedLength := q.length }
       if s2.masked = false then .next (raiseUnmasked s2)
       else if isPingPong s2.opcode then .next (raisePingPong s2)
       else .next { s2 with state := .awaitLength }) := by
  unfold execFsmAwaitHeader
  rw [whenLive_live _ hs]
  exact awaitBytes_of_front (r := [b0, b1]) _ hq hn

/-- AWAIT_PAYLOAD with its payload at the front of the queue. -/
theorem execFsmAwaitPayload_of_front (w q : List Byte) (s : State) (hs : s.ended = false)
    (hq : s.pendingChunks = w ++ q) (hn : s.bufferedLength = s.pendingChunks.length)
    (hw : w.length = s.framePayloadLength.toNat) :
    execFsmAwaitPayload s =
      (let s2 := storePayload (unmask w s.maskKey) { s with pendingChunks := q, bufferedLength := q.length }
       if isClose s.opcode then .next { s2 with state := .closePending }
       else if s.framePayloadLength = 0 then .next (raiseEmpty s2)
       else if s.fin then .next (completeMessage s2)
       else .next { s2 with state := .awaitHeader }) := by
  unfold execFsmAwaitPayload
  rw [whenLive_live _ hs, ← hw, awaitBytes_of_front _ hq hn]

/-! ### Whole frames, past the cap test -/

/-- Within the cap a frame goes on with its header registers, lengths and key written. -/
theorem receiveFrame_of_le (op : BitVec 4) (f : RxFrame) (k : State → State) (s : State)
    (h : s.totalPayloadLength.toNat + f.len.toNat ≤ 1048576) :
    receiveFrame op f k s = k { s with
      fin := f.fin
      opcode := op
      masked := true
      payloadSizeIndicator := lengthIndicator f.len
      framePayloadLength := lengthValue f.len
      totalPayloadLength := s.totalPayloadLength + lengthValue f.len
      maskKey := f.key } := by
  unfold receiveFrame
  rw [overCap_eq_false.2 (by rw [lengthValue_toNat]; exact h)]
  rfl

/-- Above the cap it is TOO_BIG. -/
theorem receiveFrame_of_gt (op : BitVec 4) (f : RxFrame) (k : State → State) (s : State)
    (h : 1048576 < s.totalPayloadLength.toNat + f.len.toNat) :
    ∃ s', receiveFrame op f k s = raiseTooBig s' ∧ s'.output = s.output ∧ s'.inputs = s.inputs ∧
      s'.request = s.request := by
  unfold receiveFrame
  rw [overCap_eq_true.2 (by rw [lengthValue_toNat]; exact h)]
  exact ⟨_, rfl, rfl, rfl, rfl⟩

theorem lengthValue_eq_zero {len : LengthField} : lengthValue len = 0 ↔ len.toNat = 0 := by
  rw [← lengthValue_toNat, ← BitVec.toNat_inj]; rfl

end Sys2Proof.Machine
end

