-- ==== Sys2Proof/Tests/Slice0.lean ====
section
/-! SUPPORT. Tests/Slice0.lean: small tests. Expected values are the vectors of spec/95_test_vectors.md (named V.. and P..) or hand
calculation from the cited rule; the words of the decode tests are written out from spec/30_encoding.md. Then one
witness for the hypotheses of each statement, clause by clause, at boundary values. -/

namespace Sys2Proof.Machine.Tests

/-! ### Helpers -/

/-- The next state an operation answers. -/
def nextOf : Result → Option State
  | .next t => some t
  | _ => none

/-- What an operation leaves, through `view`. -/
def after {α : Type} (i : Instr) (s : State) (view : State → α) : Option α := (nextOf (exec i s)).map view

/-- What a step leaves, through `view`. -/
def stepped {α : Type} (s : State) (view : State → α) : Option α := (nextOf (step s)).map view

/-- A session inside a transaction with the given queue. -/
def queued (q : List Byte) : State :=
  { State.reset with pendingChunks := q, bufferedLength := q.length, inTransaction := true }

/-- A final frame with a zero key and a LEN7 field. -/
def plain (p : List Byte) : RxFrame := ⟨true, 0, .len7 (BitVec.ofNat 7 p.length), zeroKey, p⟩

/-- The key of VD1. -/
def keyVD1 : MaskKey := ⟨0x37, 0xFA, 0x21, 0x3D⟩

/-- "Hello" -/
def hello : List Byte := [0x48, 0x65, 0x6C, 0x6C, 0x6F]

/-- The frame of VD1. -/
def frameVD1 : RxFrame := ⟨true, 0, .len7 5, keyVD1, [0x7F, 0x9F, 0x4D, 0x51, 0x58]⟩

/-- The state of VD5, four of five payload bytes in, its transaction over. -/
def midFrame : State :=
  { State.reset with
    state := .awaitPayload
    fin := true
    opcode := 1
    masked := true
    payloadSizeIndicator := 5
    framePayloadLength := 5
    totalPayloadLength := 5
    maskKey := keyVD1
    pendingChunks := [0x7F, 0x9F, 0x4D, 0x51]
    bufferedLength := 4 }

/-- A session that has ended (VC3). -/
def endedSession : State := { State.reset with ended := true, output := [.endConnection] }

/-! ### Well-formedness: each check refuses an ill-formed term -/

theorem test_wf_refuses_len7_above_125 :
    (Instr.rxText ⟨true, 0, .len7 126, zeroKey, List.replicate 126 0⟩).wf = false := by decide

theorem test_wf_refuses_wire_not_of_length : (Instr.rxClose ⟨true, 0, .len7 3, zeroKey, [0x03, 0xE8]⟩).wf = false := by
  decide

theorem test_wf_refuses_lenLen7_126 : (Instr.lenLen7 126).wf = false := by decide

theorem test_wf_refuses_txlenLen7_126 : (Instr.txlenLen7 126).wf = false := by decide

theorem test_wf_refuses_txlenLen16_125 : (Instr.txlenLen16 125).wf = false := by decide

theorem test_wf_refuses_txlenLen64_65535 : (Instr.txlenLen64 65535).wf = false := by decide

theorem test_wf_refuses_empty_echo : (Instr.txEcho []).wf = false := by decide

theorem test_wf_refuses_echo_above_cap (m : List Byte) (h : m.length = 1048577) : (Instr.txEcho m).wf = false := by
  simp only [Instr.wf, h]; decide

theorem test_wf_refuses_close_beyond_64_bits (c : Word) (r : List Byte) (h : r.length = 18446744073709551614) :
    (Instr.txClose c r).wf = false := by
  simp only [Instr.wf, h]; decide

theorem test_wf_accepts_non_minimal_length : (Instr.rxText ⟨true, 7, .len64 1, zeroKey, [0x41]⟩).wf = true := by decide

/-! ### Decoding: a word of every row, written out from its encoding -/

/-- Byte 0: FIN, RSV, opcode; byte 1: MASK, indicator (R91, R92, R98). Payload "A" under a zero key. -/
theorem test_decode_rx_opcodes :
    decode .rx [0x80, 0x81, 0, 0, 0, 0, 0x41] = .ok (.rxOp0 (plain [0x41]), []) ∧
    decode .rx [0x81, 0x81, 0, 0, 0, 0, 0x41] = .ok (.rxText (plain [0x41]), []) ∧
    decode .rx [0x82, 0x81, 0, 0, 0, 0, 0x41] = .ok (.rxBinary (plain [0x41]), []) ∧
    decode .rx [0x83, 0x81, 0, 0, 0, 0, 0x41] = .ok (.rxOp3 (plain [0x41]), []) ∧
    decode .rx [0x84, 0x81, 0, 0, 0, 0, 0x41] = .ok (.rxOp4 (plain [0x41]), []) ∧
    decode .rx [0x85, 0x81, 0, 0, 0, 0, 0x41] = .ok (.rxOp5 (plain [0x41]), []) ∧
    decode .rx [0x86, 0x81, 0, 0, 0, 0, 0x41] = .ok (.rxOp6 (plain [0x41]), []) ∧
    decode .rx [0x87, 0x81, 0, 0, 0, 0, 0x41] = .ok (.rxOp7 (plain [0x41]), []) ∧
    decode .rx [0x88, 0x82, 0, 0, 0, 0, 0x03, 0xE8] = .ok (.rxClose (plain [0x03, 0xE8]), []) := by decide

theorem test_decode_rx_high_opcodes :
    decode .rx [0x89, 0x80] = .ok (.rxPing ⟨true, 0, 0⟩, []) ∧
    decode .rx [0x8A, 0x82, 0x01] = .ok (.rxPong ⟨true, 0, 2⟩, [0x01]) ∧
    decode .rx [0x8B, 0x81, 0, 0, 0, 0, 0x41] = .ok (.rxOpB (plain [0x41]), []) ∧
    decode .rx [0x8C, 0x81, 0, 0, 0, 0, 0x41] = .ok (.rxOpC (plain [0x41]), []) ∧
    decode .rx [0x8D, 0x81, 0, 0, 0, 0, 0x41] = .ok (.rxOpD (plain [0x41]), []) ∧
    decode .rx [0x8E, 0x81, 0, 0, 0, 0, 0x41] = .ok (.rxOpE (plain [0x41]), []) ∧
    decode .rx [0x8F, 0x81, 0, 0, 0, 0, 0x41] = .ok (.rxOpF (plain [0x41]), []) ∧
    decode .rx [0x09, 0x00] = .ok (.rxUnmasked ⟨false, 0, 9, 0⟩, []) := by decide

/-- VH7 (RSV = 111), VD9 (16-bit form), VD10 (64-bit form); FIN = 0; the bytes behind the frame stay. -/
theorem test_decode_rx_forms :
    decode .rx [0xF1, 0x81, 0, 0, 0, 0, 0x41] = .ok (.rxText ⟨true, 7, .len7 1, zeroKey, [0x41]⟩, []) ∧
    decode .rx [0x81, 0xFE, 0, 1, 0, 0, 0, 0, 0x41] = .ok (.rxText ⟨true, 0, .len16 1, zeroKey, [0x41]⟩, []) ∧
    decode .rx [0x81, 0xFF, 0, 0, 0, 0, 0, 0, 0, 1, 0, 0, 0, 0, 0x41]
      = .ok (.rxText ⟨true, 0, .len64 1, zeroKey, [0x41]⟩, []) ∧
    decode .rx [0x01, 0x83, 1, 2, 3, 4, 0x49, 0x67, 0x6F, 0x81]
      = .ok (.rxText ⟨false, 0, .len7 3, ⟨1, 2, 3, 4⟩, [0x49, 0x67, 0x6F]⟩, [0x81]) := by decide

/-- VL1 to VL8 and VL6 (R93): 0 to 125, 126 and two bytes, 127 and eight bytes. -/
theorem test_decode_len :
    decode .len [0x7D] = .ok (.lenLen7 125, []) ∧
    decode .len [0x7E, 0x00, 0x7E] = .ok (.lenLen16 126, []) ∧
    decode .len [0x7F, 0, 0, 0, 0, 0, 0x10, 0, 0] = .ok (.lenLen64 1048576, []) ∧
    decode .len [0x7E, 0x00] = .error .truncated ∧
    decode .len [0x80] = .error .indicatorTooWide := by decide

/-- VE3 to VE7 (R99), and that a longer form than needed is not one of the encoder's. -/
theorem test_decode_txlen :
    decode .txlen [0x7D] = .ok (.txlenLen7 125, []) ∧
    decode .txlen [0x7E, 0xFF, 0xFF] = .ok (.txlenLen16 65535, []) ∧
    decode .txlen [0x7F, 0, 0, 0, 0, 0, 1, 0, 0] = .ok (.txlenLen64 65536, []) ∧
    decode .txlen [0x7E, 0x00, 0x7D] = .error .lengthNotShortest := by decide

/-- VE2, VE13 (R100, R101); a set MASK bit is no outbound frame. -/
theorem test_decode_tx :
    decode .tx [0x82, 0x01, 0x41] = .ok (.txEcho [0x41], []) ∧
    decode .tx [0x88, 0x02, 0x03, 0xE8] = .ok (.txClose 1000 [], []) ∧
    decode .tx [0x82, 0x81, 0, 0, 0, 0, 0x41] = .error .notOutbound := by decide

/-- The encodings of `state` (R22), 5 to 7 reserved; COMPLETE repeats 3 under its qualifier (log 5). -/
theorem test_decode_fsm :
    decode .fsm [0] = .ok (.fsmAwaitHeader, []) ∧ decode .fsm [1] = .ok (.fsmAwaitLength, []) ∧
    decode .fsm [2] = .ok (.fsmAwaitMaskKey, []) ∧ decode .fsm [3] = .ok (.fsmAwaitPayload, []) ∧
    decode .fsm [4] = .ok (.fsmClosePending, []) ∧ decode .fsm [11] = .ok (.fsmComplete, []) ∧
    decode .fsm [5] = .error .reservedState ∧ decode .fsm [8] = .error .notAState := by decide

/-- The table's own numbering (log 5, 6). -/
theorem test_decode_table_word :
    decodeTableWord 16 0x0180 = some (.rxText ⟨false, 0, .len7 0, zeroKey, []⟩) ∧
    decodeTableWord 16 0x0000 = some (.rxUnmasked ⟨false, 0, 0, 0⟩) ∧
    decodeTableWord 16 0x8200 = some (.txEcho [0]) ∧
    decodeTableWord 16 0x8800 = some (.txClose 0 []) ∧
    decodeTableWord 8 0x7F = some (.lenLen64 0) ∧
    decodeTableWord 8 0x02 = some .fsmAwaitMaskKey := by decide

/-- The placed word is the next one to run: AWAIT_MASK_KEY suspends on an empty queue; a ping ends the session. -/
theorem test_withFetchWord :
    step (State.reset.withFetchWord 8 2) = .next { State.reset with state := .awaitMaskKey } ∧
    stepped (State.reset.withFetchWord 16 0x0980) (fun t => (t.ended, t.request, t.output.length))
      = some (true, none, 2) := ⟨rfl, by decide⟩

/-! ### Inbound frames -/

/-- VD1. -/
theorem test_text_hello :
    after (.rxText frameVD1) State.reset (fun t => (t.output, t.ended)) = some ([.write (0x82 :: 0x05 :: hello)], false) := by
  decide

/-- P2, after 9 bytes. -/
theorem test_text_not_final :
    after (.rxText ⟨false, 0, .len7 3, ⟨1, 2, 3, 4⟩, [0x49, 0x67, 0x6F]⟩) State.reset
        (fun t => (t.fragments, t.framesReceived, t.totalPayloadLength, t.maskKey, t.opcode))
      = some ([[0x48, 0x65, 0x6C]], 1, 3, ⟨1, 2, 3, 4⟩, 1) := by decide

/-- VD2, VD6 to VD8 and the other rows of R217 and R218. -/
theorem test_every_data_opcode_echoes :
    [Instr.rxBinary, .rxOp0, .rxOp3, .rxOp4, .rxOp5, .rxOp6, .rxOp7, .rxOpB, .rxOpC, .rxOpD, .rxOpE, .rxOpF].all
      (fun row => after (row (plain [0x41])) State.reset (·.output) == some [.write [0x82, 0x01, 0x41]]) = true := by
  decide

/-- VD3. -/
theorem test_empty_text :
    after (.rxText (plain [])) State.reset (·.output)
      = some [.write [0x88, 0x1B, 0x03, 0xF0, 0x65, 0x6D, 0x70, 0x74, 0x79, 0x20, 0x70, 0x61, 0x79, 0x6C, 0x6F, 0x61,
          0x64, 0x20, 0x6E, 0x6F, 0x74, 0x20, 0x61, 0x6C, 0x6C, 0x6F, 0x77, 0x65, 0x64], .endConnection] := by decide

/-- VC1, VC3. -/
theorem test_close_without_code_and_going_away :
    after (.rxClose (plain [])) State.reset (·.output)
      = some [.write [0x88, 0x16, 0x03, 0xF0, 0x73, 0x74, 0x61, 0x74, 0x75, 0x73, 0x20, 0x63, 0x6F, 0x64, 0x65, 0x20,
          0x72, 0x65, 0x71, 0x75, 0x69, 0x72, 0x65, 0x64], .endConnection] ∧
    after (.rxClose (plain [0x03, 0xE9])) State.reset (fun t => (t.output, t.ended)) = some ([.endConnection], true) := by
  decide

/-- VC5, VC8: the reply carries the code of the first stored fragment, and the farewell whatever it is. -/
theorem test_close_reply :
    after (.rxClose ⟨true, 0, .len7 3, ⟨0xDE, 0xAD, 0xBE, 0xEF⟩, [0xD1, 0x0D, 0xC6]⟩) State.reset (·.output)
      = some [.write (encodeClose 4000 config.reasonFarewell), .endConnection] ∧
    after (.rxClose (plain [0x03, 0xE8])) { State.reset with fragments := [[0x48, 0x69, 0x21]], totalPayloadLength := 3 }
        (·.output)
      = some [.write (encodeClose 0x4869 config.reasonFarewell), .endConnection] := ⟨rfl, rfl⟩

/-- VH3, VH4. -/
theorem test_ping_pong :
    after (.rxPing ⟨true, 0, 0⟩) State.reset (·.output)
      = some [.write [0x88, 0x17, 0x03, 0xEB, 0x70, 0x69, 0x6E, 0x67, 0x2F, 0x70, 0x6F, 0x6E, 0x67, 0x20, 0x75, 0x6E,
          0x73, 0x75, 0x70, 0x70, 0x6F, 0x72, 0x74, 0x65, 0x64], .endConnection] ∧
    after (.rxPong ⟨true, 0, 0⟩) State.reset (·.output) = after (.rxPing ⟨true, 0, 0⟩) State.reset (·.output) := by decide

/-- VH6, P8: the mask test comes before the opcode test. -/
theorem test_unmasked_ping :
    after (.rxUnmasked ⟨false, 0, 9, 0⟩) State.reset (·.output)
      = some [.write (encodeClose config.codeUnmasked config.reasonUnmasked), .endConnection] := rfl

/-! ### Lengths -/

/-- VL2, VL4, VL8. -/
theorem test_lengths :
    after (.lenLen7 125) State.reset (fun t => (t.framePayloadLength, t.state)) = some (125, .awaitMaskKey) ∧
    after (.lenLen16 65535) State.reset (fun t => (t.framePayloadLength, t.state)) = some (65535, .awaitMaskKey) ∧
    after (.lenLen64 1048576) State.reset (fun t => (t.totalPayloadLength, t.state)) = some (1048576, .awaitMaskKey) := by
  decide

/-- VT6: a wrapped sum would pass the cap. -/
theorem test_cap_does_not_wrap :
    after (.lenLen64 0xFFFFFFFFFFFFFFFF) { State.reset with totalPayloadLength := 1 } (·.output)
      = some [.write [0x88, 0x11, 0x03, 0xF1, 0x6D, 0x65, 0x73, 0x73, 0x61, 0x67, 0x65, 0x20, 0x74, 0x6F, 0x6F, 0x20,
          0x62, 0x69, 0x67], .endConnection] := by decide

/-- VE3, VE4, VE7: byte 1 and the extended length. -/
theorem test_outbound_lengths :
    after (.txlenLen7 125) State.reset (·.encoderLength) = some [0x7D] ∧
    after (.txlenLen16 126) State.reset (·.encoderLength) = some [0x7E, 0x00, 0x7E] ∧
    after (.txlenLen64 65536) State.reset (·.encoderLength) = some [0x7F, 0, 0, 0, 0, 0, 1, 0, 0] := by decide

/-! ### Outbound frames -/

/-- VE2, and that the connection goes on (R220). -/
theorem test_echo :
    after (.txEcho hello) State.reset (fun t => (t.output, t.ended))
      = some ([.write (0x82 :: 0x05 :: hello)], false) := by decide

/-- VE13, and that `end()` follows (R195). -/
theorem test_close_frame :
    after (.txClose 1000 []) State.reset (fun t => (t.output, t.ended))
      = some ([.write [0x88, 0x02, 0x03, 0xE8], .endConnection], true) := by decide

/-! ### The sequencer -/

/-- VH8. -/
theorem test_header :
    after .fsmAwaitHeader (queued [0x01, 0x83])
        (fun t => (t.fin, t.opcode, t.masked, t.payloadSizeIndicator, t.state))
      = some (false, 1, true, 3, .awaitLength) := by decide

/-- VH2. -/
theorem test_header_suspends :
    after .fsmAwaitHeader (queued [0x81]) (fun t => (t.pendingChunks, t.state, t.inTransaction))
      = some ([0x81], .awaitHeader, false) := by decide

/-- VL3, VL6. -/
theorem test_length :
    after .fsmAwaitLength { queued [0x00, 0x7E] with payloadSizeIndicator := 126 }
        (fun t => (t.framePayloadLength, t.bufferedLength)) = some (126, 0) ∧
    after .fsmAwaitLength { queued [0x00] with payloadSizeIndicator := 126 }
        (fun t => (t.bufferedLength, t.inTransaction)) = some (1, false) := by decide

/-- VK1, VK2. -/
theorem test_mask_key :
    after .fsmAwaitMaskKey (queued [0x37, 0xFA, 0x21, 0x3D, 0x7F]) (fun t => (t.maskKey, t.pendingChunks, t.state))
      = some (keyVD1, [0x7F], .awaitPayload) ∧
    after .fsmAwaitMaskKey (queued [0x37, 0xFA, 0x21]) (fun t => (t.bufferedLength, t.maskKey)) = some (3, zeroKey) := by
  decide

/-- VD5, VX3: one byte short suspends; the last byte gives the echo. -/
theorem test_payload :
    after .fsmAwaitPayload midFrame (fun t => (t.bufferedLength, t.fragments, t.output)) = some (4, [], []) ∧
    after .fsmAwaitPayload (appendInput [0x58] midFrame) (fun t => (t.output, t.state))
      = some ([.write (0x82 :: 0x05 :: hello)], .awaitHeader) := by decide

/-- VC2 (one byte), VC6 (code 0). -/
theorem test_close_pending :
    after .fsmClosePending { State.reset with fragments := [[0x03]] } (fun t => t.output.head?)
      = some (some (.write (encodeClose 1008 config.reasonNoStatus))) ∧
    after .fsmClosePending { State.reset with fragments := [[0x00, 0x00]] } (·.output)
      = some [.write (encodeClose 0 config.reasonFarewell), .endConnection] := ⟨rfl, rfl⟩

/-- The first echo of P2, and that it takes the stores back to empty. -/
theorem test_complete :
    after .fsmComplete { State.reset with fragments := [[0x48, 0x65, 0x6C], [0x6C, 0x6F]], framesReceived := 2 }
        (fun t => (t.output, t.fragments, t.framesReceived))
      = some ([.write (0x82 :: 0x05 :: hello)], [], 0) := by decide

/-! ### Events -/

/-- VX1, VX2: an ended instance ignores bytes; a closed stream gives no output. -/
theorem test_events :
    stepped { endedSession with inputs := [.bytesReceived [0x81]] } (fun t => (t.pendingChunks, t.inTransaction))
      = some ([], false) ∧
    stepped { midFrame with inputs := [.streamClosed] } (fun t => (t.output, t.state, t.ended, t.bufferedLength))
      = some ([], .awaitHeader, true, 0) := by decide

/-- A queue whose count is wrong is the only way to BufferUnderrun (log 11). -/
theorem test_buffer_underrun :
    exec .fsmAwaitHeader { State.reset with bufferedLength := 2 } = .fault .bufferUnderrun := rfl

/-! ### Witnesses: states and operands that meet the hypotheses of each statement, a clause at a time -/

/-- `midFrame` with any queue whose count is right, inside a transaction or not, for either FIN, is a live session's state. -/
theorem midFrame_inv (q : List Byte) (fin tx : Bool) (ins : List InputEvent) :
    SessionInv { midFrame with
      pendingChunks := q, bufferedLength := q.length, fin := fin, inTransaction := tx, inputs := ins } := by
  refine ⟨rfl, fun _ => ?_, by simp [midFrame]⟩
  constructor <;> simp [midFrame, Memory.wf, bytesStored, config_maxMessageSize, State.reset]

/-- The whole payload of `midFrame` is in. -/
def payloadIn (fin : Bool) : State :=
  { midFrame with pendingChunks := frameVD1.wire, bufferedLength := 5, fin := fin, inTransaction := true }

theorem witness_DecodeEncodeRoundTrip :
    (Instr.rxText frameVD1).wf = true ∧ (Instr.lenLen7 125).wf = true ∧ (Instr.txlenLen7 125).wf = true ∧
    (Instr.txlenLen16 126).wf = true ∧ (Instr.txlenLen64 65536).wf = true ∧ (Instr.txEcho [0]).wf = true ∧
    (Instr.txClose 1000 []).wf = true := by decide

theorem witness_DecodedCodeIsItsEncoding :
    decode .rx [0x89, 0x80, 0x81] = .ok (.rxPing ⟨true, 0, 0⟩, [0x81]) := by decide

theorem witness_InboundLengthForms : (125 : BitVec 7).toNat ≤ 125 ∧ (0 : BitVec 7).toNat ≤ 125 := by decide

theorem witness_OutboundLengthForms :
    0 ≤ 125 ∧ 126 ≤ 126 ∧ 126 ≤ 65535 ∧ 65536 ≤ 65536 ∧ 65536 < 2 ^ 64 ∧ (LengthField.len7 125).wf = true ∧
    (LengthField.len64 1).wf = true := by decide

theorem witness_OutboundLengthReadsBack : 2 ^ 64 - 1 < 2 ^ 64 := by decide

theorem witness_UnmaskXorsEachByteWithItsKeyByte : 4 < hello.length := by decide

theorem witness_EncodeFrameLayout : ((0x2 : BitVec 4) = 0x2 ∨ (0x2 : BitVec 4) = 0x8) ∧
    (List.replicate 125 (0 : Byte)).length ≤ 125 ∧ 126 ≤ (List.replicate 126 (0 : Byte)).length ∧
    (List.replicate 65535 (0 : Byte)).length ≤ 65535 ∧ 65536 ≤ (List.replicate 65536 (0 : Byte)).length := by
  simp only [List.length_replicate]; decide

theorem witness_CloseFrameLayout :
    (List.replicate 123 (0 : Byte)).length ≤ 123 ∧ 124 ≤ (List.replicate 124 (0 : Byte)).length ∧
    (List.replicate 65533 (0 : Byte)).length ≤ 65533 := by simp only [List.length_replicate]; decide

theorem witness_OutboundFrameIsUnmaskedInbound : (0x8 : BitVec 4) = 0x2 ∨ (0x8 : BitVec 4) = 0x8 := by decide

theorem witness_RsvBitsAreIgnored :
    IsDataRow (.rxText { frameVD1 with rsv := 7 }) 1 { frameVD1 with rsv := 7 } ∧ State.reset.ended = false :=
  ⟨.inr (.inl ⟨rfl, rfl⟩), rfl⟩

theorem witness_ConsumeRemovesExactlyN : State.reset.bufferedLength < 1 ∧
    (queued [1, 2, 3]).pendingChunks = [1, 2] ++ [3] ∧
    (queued [1, 2, 3]).bufferedLength = (queued [1, 2, 3]).pendingChunks.length := by decide

theorem witness_ChunkIsAppendedWhole : let s := { midFrame with inputs := [.bytesReceived [0x58]] }
    s.request = none ∧ s.inTransaction = false ∧ s.ended = false ∧ s.inputs = .bytesReceived [0x58] :: [] := by decide

theorem witness_StreamClosedEndsSilently : let s := { midFrame with inputs := [.streamClosed] }
    s.request = none ∧ s.inTransaction = false ∧ s.ended = false ∧ s.inputs = .streamClosed :: [] := by decide

/-- MASK just set; the opcodes on both sides of PING and PONG. -/
theorem witness_AwaitHeaderTakesTwoBytes : let s := queued [0x8B, 0x80]
    s.ended = false ∧ s.pendingChunks = 0x8B :: 0x80 :: [] ∧ s.bufferedLength = s.pendingChunks.length ∧
    128 ≤ (0x80 : Byte).toNat ∧ (0x8B : Byte).toNat % 16 ≠ 9 ∧ (0x8B : Byte).toNat % 16 ≠ 10 ∧
    (0x88 : Byte).toNat % 16 ≠ 9 := by decide

/-- The length is exactly the cap. -/
theorem witness_AwaitLengthAddsToTotal : let ext : List Byte := [0, 0, 0, 0, 0, 0x10, 0, 0]
    let s := { queued ext with payloadSizeIndicator := 127 }
    s.ended = false ∧ s.pendingChunks = ext ++ [] ∧ s.bufferedLength = s.pendingChunks.length ∧
    ext.length = extendedBytes s.payloadSizeIndicator ∧
    s.totalPayloadLength.toNat + (inboundLength s.payloadSizeIndicator ext).toNat = 1048576 := by decide

theorem witness_AwaitMaskKeyTakesFourBytes : let s := queued [1, 2, 3, 4, 5]
    s.ended = false ∧ s.pendingChunks = 1 :: 2 :: 3 :: 4 :: [5] ∧ s.bufferedLength = s.pendingChunks.length := by decide

theorem witness_AwaitPayloadStoresFragment : let s := payloadIn false
    s.ended = false ∧ s.pendingChunks = frameVD1.wire ++ [] ∧ s.bufferedLength = s.pendingChunks.length ∧
    frameVD1.wire.length = s.framePayloadLength.toNat ∧ frameVD1.wire ≠ [] ∧ s.opcode ≠ 0x8 ∧ s.fin = false := by decide

/-- With a payload, and without one. -/
theorem witness_AwaitPayloadHandsCloseOn :
    (let s := { payloadIn true with opcode := 0x8 }
     s.ended = false ∧ s.pendingChunks = frameVD1.wire ++ [] ∧ s.bufferedLength = s.pendingChunks.length ∧
     frameVD1.wire.length = s.framePayloadLength.toNat ∧ s.opcode = 0x8) ∧
    (let s := { queued [] with opcode := 0x8 }
     s.pendingChunks = [] ++ [] ∧ ([] : List Byte).length = s.framePayloadLength.toNat ∧ s.opcode = 0x8) := by decide

theorem witness_CompleteEchoesAndResets :
    (let s := payloadIn true
     s.ended = false ∧ s.pendingChunks = frameVD1.wire ++ [] ∧ s.bufferedLength = s.pendingChunks.length ∧
     frameVD1.wire.length = s.framePayloadLength.toNat ∧ frameVD1.wire ≠ [] ∧ s.opcode ≠ 0x8 ∧ s.fin = true) ∧
    LiveInv (payloadIn true) ∧ (payloadIn true).state = .awaitPayload ∧
    ∃ t, exec .fsmAwaitPayload (payloadIn true) = .next t ∧ t.ended = false ∧ t.output ≠ (payloadIn true).output :=
  ⟨by decide, (midFrame_inv frameVD1.wire true true []).live rfl, rfl, _, rfl, rfl, by decide⟩

/-- No fragment; one byte; 1001; the codes on both sides of it. -/
theorem witness_ClosePendingAnswersFirstFragment :
    State.reset.ended = false ∧ State.reset.fragments = [] ∧
    { State.reset with fragments := [[3]] }.fragments = [3] :: [] ∧ [3].length < 2 ∧
    { State.reset with fragments := [[3, 0xE9], [7]] }.fragments = (3 :: 0xE9 :: []) :: [[7]] ∧
    (3 : Byte).toNat * 256 + (0xE9 : Byte).toNat = 1001 ∧ (3 : Byte).toNat * 256 + (0xE8 : Byte).toNat ≠ 1001 ∧
    (3 : Byte).toNat * 256 + (0xEA : Byte).toNat ≠ 1001 := by decide

/-- One byte short, for each need. -/
theorem witness_ShortQueueSuspends :
    (queued [1]).ended = false ∧ (queued [1]).bufferedLength < 2 ∧
    { queued [1, 2, 3, 4, 5, 6, 7] with payloadSizeIndicator := 127 }.bufferedLength < 8 ∧
    { queued [1] with payloadSizeIndicator := 126 }.payloadSizeIndicator = 126 ∧ (queued [1, 2, 3]).bufferedLength < 4 ∧
    midFrame.bufferedLength < midFrame.framePayloadLength.toNat := by decide

theorem witness_ActionsWriteOnlyTheirRegisters :
    (∃ t, exec .fsmAwaitHeader (queued [0x81, 0x85]) = .next t ∧ t.ended = false) ∧
    (∃ t, exec .fsmAwaitLength (queued []) = .next t ∧ t.ended = false) ∧
    (∃ t, exec .fsmAwaitMaskKey (queued [1, 2, 3, 4]) = .next t ∧ t.ended = false) ∧
    (∃ t, exec .fsmAwaitPayload (payloadIn false) = .next t ∧ t.ended = false ∧ t.output = (payloadIn false).output) :=
  ⟨⟨_, rfl, rfl⟩, ⟨_, rfl, rfl⟩, ⟨_, rfl, rfl⟩, _, rfl, rfl, rfl⟩

/-- The total reaches the cap exactly. -/
theorem witness_DataFrameNotFinalIsStored :
    let f := { frameVD1 with fin := false }
    let s := { State.reset with totalPayloadLength := 1048571 }
    IsDataRow (.rxOpF f) 0xF f ∧ (Instr.rxOpF f).wf = true ∧ s.ended = false ∧
    s.totalPayloadLength.toNat + f.len.toNat = 1048576 ∧ 0 < f.len.toNat ∧ f.fin = false := by
  refine ⟨?_, by decide⟩
  iterate 12 refine .inr ?_
  exact ⟨rfl, rfl⟩

theorem witness_DataFrameFinalEchoesMessage :
    let s := { State.reset with totalPayloadLength := 1048571 }
    IsDataRow (.rxText frameVD1) 1 frameVD1 ∧ (Instr.rxText frameVD1).wf = true ∧ s.ended = false ∧
    s.totalPayloadLength.toNat + frameVD1.len.toNat = 1048576 ∧ 0 < frameVD1.len.toNat ∧ frameVD1.fin = true :=
  ⟨.inr (.inl ⟨rfl, rfl⟩), by decide⟩

/-- 1001, the code below it, and one byte. -/
theorem witness_CloseFrameAnswersItsCode :
    (plain [3, 0xE9]).wf = true ∧ State.reset.ended = false ∧ State.reset.fragments = [] ∧
    State.reset.totalPayloadLength.toNat + (plain [3, 0xE9]).len.toNat ≤ 1048576 ∧
    unmask (plain [3, 0xE9]).wire (plain [3, 0xE9]).key = 3 :: 0xE9 :: [] ∧ 3 * 256 + 0xE9 = 1001 ∧
    unmask (plain [3, 0xE8]).wire (plain [3, 0xE8]).key = 3 :: 0xE8 :: [] ∧ 3 * 256 + 0xE8 ≠ 1001 ∧
    (plain [3]).len.toNat = 1 := by decide

/-- A frame that is the first, one behind data, and an empty one behind data, the total at the cap. -/
theorem witness_CloseReadsFirstFragment :
    let s := { State.reset with fragments := [[7], [8]], totalPayloadLength := 1048574 }
    s.ended = false ∧ s.fragments = [7] :: [[8]] ∧ (plain [3, 0xE8]).wf = true ∧ (plain []).wf = true ∧
    s.totalPayloadLength.toNat + (plain [3, 0xE8]).len.toNat = 1048576 ∧ 0 < (plain [3, 0xE8]).len.toNat ∧
    State.reset.fragments = [] := by decide

theorem witness_CloseWithoutPayloadGets1008 :
    (let s := { State.reset with totalPayloadLength := 1048576 }
     (plain []).wf = true ∧ s.ended = false ∧ s.fragments = [] ∧ (plain []).len.toNat = 0 ∧
     s.totalPayloadLength.toNat ≤ 1048576) ∧
    ∃ t, exec .fsmAwaitPayload { queued [] with opcode := 0x8 } = .next t := ⟨by decide, _, rfl⟩

theorem witness_InterleavedCloseReadsFirstFragment :
    let s := { State.reset with fragments := [[3, 0xE9, 0x7A, 0x7A]], totalPayloadLength := 1048574 }
    (plain [3, 0xE8]).wf = true ∧ s.ended = false ∧ s.fragments = (3 :: 0xE9 :: [0x7A, 0x7A]) :: [] ∧
    s.totalPayloadLength.toNat + (plain [3, 0xE8]).len.toNat = 1048576 := by decide

theorem witness_PingAndPongGet1003 : let s := queued [0x0A, 0x80, 1]
    s.ended = false ∧ s.pendingChunks = 0x0A :: 0x80 :: [1] ∧ s.bufferedLength = s.pendingChunks.length ∧
    128 ≤ (0x80 : Byte).toNat ∧ ((0x0A : Byte).toNat % 16 = 9 ∨ (0x0A : Byte).toNat % 16 = 10) := by decide

theorem witness_UnmaskedFrameEndsSession : let s := queued [0x89, 0x7F]
    s.ended = false ∧ s.pendingChunks = 0x89 :: 0x7F :: [] ∧ s.bufferedLength = s.pendingChunks.length ∧
    (0x7F : Byte).toNat < 128 := by decide

/-- One byte above the cap, in each clause. -/
theorem witness_OversizedMessageGets1009 :
    (let s := { State.reset with totalPayloadLength := 1048575 }
     s.ended = false ∧ s.totalPayloadLength.toNat + (plain [3, 0xE8]).len.toNat = 1048577 ∧
     s.totalPayloadLength.toNat + (2 : BitVec 7).toNat = 1048577 ∧
     s.totalPayloadLength.toNat + (2 : BitVec 16).toNat = 1048577) ∧
    State.reset.totalPayloadLength.toNat + (1048577 : BitVec 64).toNat = 1048577 ∧
    (let ext : List Byte := [0, 0, 0, 0, 0, 0x10, 0, 1]
     let s := { queued ext with payloadSizeIndicator := 127 }
     s.ended = false ∧ s.pendingChunks = ext ++ [] ∧ s.bufferedLength = s.pendingChunks.length ∧
     ext.length = extendedBytes s.payloadSizeIndicator ∧
     s.totalPayloadLength.toNat + (inboundLength s.payloadSizeIndicator ext).toNat = 1048577) := by decide

theorem witness_EmptyPayloadGets1008 :
    (let s := { State.reset with totalPayloadLength := 1048576 }
     IsDataRow (.rxOp0 (plain [])) 0 (plain []) ∧ s.ended = false ∧ s.totalPayloadLength.toNat ≤ 1048576 ∧
     (plain []).len.toNat = 0) ∧
    State.reset.framePayloadLength = 0 ∧ State.reset.opcode ≠ 0x8 :=
  ⟨⟨.inl ⟨rfl, rfl⟩, by decide⟩, by decide⟩

/-- The total reaches the cap exactly, in each form. -/
theorem witness_LengthFormsResolve :
    State.reset.ended = false ∧
    { State.reset with totalPayloadLength := 1048451 }.totalPayloadLength.toNat + (125 : BitVec 7).toNat = 1048576 ∧
    { State.reset with totalPayloadLength := 983041 }.totalPayloadLength.toNat + (65535 : BitVec 16).toNat = 1048576 ∧
    State.reset.totalPayloadLength.toNat + (1048576 : BitVec 64).toNat = 1048576 := by decide

theorem witness_OutboundLengthFormsStand : State.reset.ended = false := rfl

theorem witness_EchoIsOneBinaryWrite : State.reset.ended = false ∧ (Instr.txEcho hello).wf = true := by decide

theorem witness_CloseFrameThenEnd : State.reset.ended = false ∧ (Instr.txClose 1000 []).wf = true := by decide

theorem witness_EndedInstanceIsInert :
    endedSession.ended = true ∧ endedSession.request = none ∧ endedSession.inTransaction = false := by decide

theorem witness_OutputOnlyGrowsAndEndedStays :
    (∃ t, exec (.rxText frameVD1) State.reset = .next t) ∧ (∃ t, step (payloadIn true) = .next t) ∧
    ∃ t, step endedSession = .next t ∧ endedSession.ended = true := ⟨⟨_, rfl⟩, ⟨_, rfl⟩, _, rfl, rfl⟩

theorem witness_StepRunsTheFetchedOperation :
    (payloadIn true).request = none ∧ (payloadIn true).inTransaction = true ∧ (payloadIn true).ended = false ∧
    (payloadIn true).state = .awaitPayload ∧ (queued []).state = .awaitHeader ∧
    { queued [] with state := .closePending }.state = .closePending ∧
    (Instr.lenLen16 126).wf = true ∧
    { State.reset with request := some (.len, [0x7E, 0, 126]) }.request
      = some ((Instr.lenLen16 126).port, encode (.lenLen16 126) ++ []) := by decide

theorem witness_StepKeepsInvariants :
    SessionInv (payloadIn true) ∧ ∃ t, step (payloadIn true) = .next t :=
  ⟨midFrame_inv frameVD1.wire true true [], _, rfl⟩

/-- A session that closes in the step: its trace has `end()` afterwards. -/
theorem witness_StepKeepsSessionTrace :
    let s := { queued [] with state := .closePending, fragments := [[3, 0xE9]] }
    TraceInv s ∧ ∃ t, step s = .next t ∧ .endConnection ∈ t.output := ⟨⟨rfl, fun _ => rfl⟩, _, rfl, by decide⟩

theorem witness_StoresStayCanonical : Memory.wf (payloadIn false) = true ∧
    (∃ t, exec .fsmAwaitPayload (payloadIn false) = .next t) ∧ ∃ t, step (payloadIn false) = .next t :=
  ⟨rfl, ⟨_, rfl⟩, _, rfl⟩

theorem witness_NoUnderrunAndNoRefusal : Memory.wf midFrame = true ∧ midFrame.request = none := by decide

theorem witness_FramesReceivedNeverOverflows :
    SessionInv (payloadIn false) ∧
    ∃ t, step (payloadIn false) = .next t ∧ t.framesReceived = (payloadIn false).framesReceived + 1 :=
  ⟨midFrame_inv frameVD1.wire false true [], _, rfl, rfl⟩

theorem witness_TransactionEnds : SessionInv (payloadIn true) ∧ (payloadIn true).inTransaction = true :=
  ⟨midFrame_inv frameVD1.wire true true [], rfl⟩

theorem witness_ChunkBoundariesAreNotObservable :
    SessionInv midFrame ∧ midFrame.inTransaction = false ∧ midFrame.inputs = [] ∧
    ([[0x58], [], [0x82, 0x81]] : List (List Byte)) ≠ [] :=
  ⟨midFrame_inv [0x7F, 0x9F, 0x4D, 0x51] true false [], rfl, rfl, by decide⟩

theorem witness_WholeFrameEqualsItsActions :
    let s := queued ([0x81, 0x85, 0x37, 0xFA, 0x21, 0x3D, 0x7F, 0x9F, 0x4D, 0x51, 0x58] ++ [0x82])
    (Instr.rxText frameVD1).port = .rx ∧ (Instr.rxText frameVD1).wf = true ∧ s.request = none ∧
    s.inTransaction = true ∧ s.ended = false ∧ s.state = .awaitHeader ∧
    s.pendingChunks = encode (.rxText frameVD1) ++ [0x82] ∧ s.bufferedLength = s.pendingChunks.length := by decide

/-- Two fragments with keys of their own. -/
theorem witness_FragmentsReassembleInOrder :
    let first : RxFrame := ⟨false, 0, .len7 3, ⟨1, 2, 3, 4⟩, [0x49, 0x67, 0x6F]⟩
    Carries (.rxText first) [0x48, 0x65, 0x6C] false ∧ Carries (.rxText frameVD1) hello true ∧
    State.reset.ended = false ∧ State.reset.totalPayloadLength = 0 ∧ State.reset.fragments = [] ∧
    ([[0x48, 0x65, 0x6C]].flatten ++ hello).length ≤ 1048576 :=
  ⟨⟨1, _, .inr (.inl ⟨rfl, rfl⟩), by decide⟩, ⟨1, _, .inr (.inl ⟨rfl, rfl⟩), by decide⟩, by decide⟩

end Sys2Proof.Machine.Tests
end

section

/-! # The input queue's `consume` (spec/20_memory.md R64) -/

namespace Sys2Proof.Machine

/-- BufferUnderrun, exactly: too few bytes counted, or too few held (log 11). -/
theorem consume_eq_none {n : Nat} {s : State} :
    consume n s = none ↔ s.bufferedLength < n ∨ s.pendingChunks.length < n := by
  unfold consume
  split
  · next hshort => exact iff_of_true rfl hshort
  · next henough => exact iff_of_false (by simp) henough

theorem takeBytes_of_underrun {n : Nat} {s : State} (k : List Byte → State → Result) (h : consume n s = none) :
    takeBytes n s k = .fault .bufferUnderrun := by
  simp [takeBytes, h]

/-- With bytes `r` at the front of a queue whose count is right, `consume` takes exactly `r`. -/
theorem consume_of_front {r q : List Byte} {s : State} (hq : s.pendingChunks = r ++ q)
    (hn : s.bufferedLength = s.pendingChunks.length) :
    consume r.length s = some (r, { s with pendingChunks := q, bufferedLength := q.length }) := by
  have hcount : s.bufferedLength = r.length + q.length := by rw [hn, hq, List.length_append]
  have hheld : r.length ≤ s.pendingChunks.length := by omega
  refine consume_eq_some.2 ⟨by omega, hheld, ?_, ?_⟩
  · rw [hq, List.take_left]
  · rw [hq, List.drop_left, hcount, Nat.add_sub_cancel_left]

/-- No condition on the queue: the count need not be right. -/
theorem consume_zero (s : State) : consume 0 s = some ([], s) :=
  consume_eq_some.2 ⟨Nat.zero_le _, Nat.zero_le _, rfl, rfl⟩

/-- Settles O13: the underrun is the count's disjunct of `consume_eq_none`, and what is taken follows from
`consume_eq_some` with the queue split at the bytes asked for. -/
theorem consumeRemovesExactlyN : Obligations.ConsumeRemovesExactlyN := by
  refine ⟨fun n s k hshort => ?_, fun r rest s => consume_of_front, consume_zero⟩
  have hnone : consume n s = none := consume_eq_none.2 (.inl hshort)
  exact ⟨hnone, takeBytes_of_underrun k hnone⟩

end Sys2Proof.Machine
end

section

/-! # The length forms, inbound (spec/30_encoding.md R93) and outbound (R99) -/

namespace Sys2Proof.Machine

/-! ### Big-endian values -/

theorem beValue_concat (bs : List Byte) (b : Byte) : beValue (bs ++ [b]) = beValue bs * 256 + b.toNat := by
  simp [beValue]

theorem beValue_lt (bs : List Byte) : beValue bs < 256 ^ bs.length := by
  induction bs using List.reverseRecOn with
  | nil => simp
  | append_singleton bs b ih =>
    have hb := b.isLt
    rw [beValue_concat, List.length_append, List.length_singleton, Nat.pow_succ]
    omega

/-! ### The inbound length -/

theorem extendedBytes_of_le {psi : BitVec 7} (h : psi.toNat ≤ 125) : extendedBytes psi = 0 := by
  have h126 : psi ≠ 126 := by rintro rfl; exact absurd h (by decide)
  have h127 : psi ≠ 127 := by rintro rfl; exact absurd h (by decide)
  rw [extendedBytes, if_neg h126, if_neg h127]

theorem inboundLength_of_le {psi : BitVec 7} (h : psi.toNat ≤ 125) (ext : List Byte) :
    (inboundLength psi ext).toNat = psi.toNat := by
  rw [inboundLength, if_pos h, BitVec.toNat_setWidth]
  omega

/-- Two bytes fit the 16 bits the form reads, so nothing is cut off. -/
theorem inboundLength_126 {ext : List Byte} (h : ext.length = 2) : (inboundLength 126 ext).toNat = beValue ext := by
  have hlt : beValue ext < 256 ^ 2 := h ▸ beValue_lt ext
  have hform : inboundLength 126 ext = (BitVec.ofNat 16 (beValue ext)).zeroExtend 64 := rfl
  rw [hform, BitVec.toNat_setWidth, BitVec.toNat_ofNat]
  omega

/-- Eight bytes fit the 64 bits of a length. -/
theorem inboundLength_127 {ext : List Byte} (h : ext.length = 8) : (inboundLength 127 ext).toNat = beValue ext := by
  have hlt : beValue ext < 256 ^ 8 := h ▸ beValue_lt ext
  have hform : inboundLength 127 ext = BitVec.ofNat 64 (beValue ext) := rfl
  rw [hform, BitVec.toNat_ofNat]
  omega

/-- Settles O4: the bytes of each longer form hold no more than its width (`beValue_lt`), so the length is their big-endian
value. -/
theorem inboundLengthForms : Obligations.InboundLengthForms := by
  refine ⟨fun psi hpsi => ⟨extendedBytes_of_le hpsi, inboundLength_of_le hpsi⟩,
    ⟨rfl, fun a b => ?_⟩, ⟨rfl, fun a b c d e f g h => ?_⟩⟩
  · rw [inboundLength_126 rfl]
    simp [beValue]
  · rw [inboundLength_127 rfl]
    simp only [beValue, List.foldl]
    ring

/-! ### The outbound length field -/

theorem txLengthField_of_le {n : Nat} (h : n ≤ 125) : txLengthField n = [BitVec.ofNat 8 n] := by
  rw [txLengthField, if_pos h, txLength7, headerByte1_ofNat n (by omega)]

theorem txLengthField_of_16 {n : Nat} (hlow : 126 ≤ n) (hhigh : n ≤ 65535) :
    txLengthField n = 0x7E :: be16 (BitVec.ofNat 16 n) := by
  rw [txLengthField, if_neg (by omega), if_pos hhigh]
  rfl

theorem txLengthField_of_64 {n : Nat} (h : 65536 ≤ n) : txLengthField n = 0x7F :: be64 (BitVec.ofNat 64 n) := by
  rw [txLengthField, if_neg (by omega), if_neg (by omega)]
  rfl

theorem txLengthField_length_le_three {n : Nat} (h : n ≤ 65535) : (txLengthField n).length ≤ 3 := by
  rcases le_or_gt n 125 with hshort | hlong
  · simp [txLengthField_of_le hshort]
  · simp [txLengthField_of_16 hlong h]

theorem txLengthField_length_le_nine (n : Nat) : (txLengthField n).length ≤ 9 := by
  rcases le_or_gt n 65535 with hshort | hlong
  · exact (txLengthField_length_le_three hshort).trans (by decide)
  · simp [txLengthField_of_64 hlong]

/-- By the form of the other field: a value it can carry has an outbound field no longer than that form. -/
theorem txLengthField_shortest (len : LengthField) (hwf : len.wf = true) :
    (txLengthField len.toNat).length ≤ 1 + (lengthExtension len).length := by
  cases len with
  | len7 v =>
    have hv : v.toNat ≤ 125 := by simpa [LengthField.wf] using hwf
    simp [LengthField.toNat, txLengthField_of_le hv]
  | len16 v => exact txLengthField_length_le_three (Nat.le_of_lt_succ v.isLt)
  | len64 v => exact txLengthField_length_le_nine v.toNat

/-- Settles O5: the three forms are `txLengthField_of_le`, `txLengthField_of_16` and `txLengthField_of_64` with their bytes as
numbers, and that none is shorter is `txLengthField_shortest`. -/
theorem outboundLengthForms : Obligations.OutboundLengthForms := by
  refine ⟨fun n => txLengthField_of_le, fun n hlow hhigh => ?_, fun n hlow _ => ?_, txLengthField_shortest⟩
  · rw [txLengthField_of_16 hlow hhigh, be16_ofNat]
  · rw [txLengthField_of_64 hlow, be64_ofNat]

end Sys2Proof.Machine
end

section

/-! # The masking codec (spec/43_masking_codec.md) -/

namespace Sys2Proof.Machine

/-! ### The codec byte by byte -/

/-- The key as a byte string: the four residues of the index pick its four bytes. -/
theorem keyByte_eq_byteAt (key : MaskKey) (i : Nat) :
    keyByte key i = byteAt [key.k0, key.k1, key.k2, key.k3] (i % 4) := by
  have hi : i % 4 = 0 ∨ i % 4 = 1 ∨ i % 4 = 2 ∨ i % 4 = 3 := by omega
  rcases hi with hi | hi | hi | hi <;> simp [keyByte, byteAt, hi]

theorem keyByte_zero (i : Nat) : keyByte ⟨0, 0, 0, 0⟩ i = 0 := by
  unfold keyByte
  split <;> rfl

/-- At position `i` of the bytes that are left, the frame's index is `start + i`. -/
theorem getElem_unmaskFrom (key : MaskKey) (start : Nat) (p : List Byte) (i : Nat)
    (h : i < (unmaskFrom key start p).length) :
    (unmaskFrom key start p)[i] = p[i]'(by simpa using h) ^^^ keyByte key (start + i) := by
  induction p generalizing start i with
  | nil => simp at h
  | cons b bs ih =>
    cases i with
    | zero => rfl
    | succ i =>
      have hi : i < (unmaskFrom key (start + 1) bs).length := by simpa using h
      have hindex : start + 1 + i = start + (i + 1) := by omega
      simpa [unmaskFrom, hindex] using ih (start + 1) i hi

/-- R180: a frame's index starts at 0. -/
@[simp] theorem getElem_unmask (p : List Byte) (key : MaskKey) (i : Nat) (h : i < (unmask p key).length) :
    (unmask p key)[i] = p[i]'(by simpa using h) ^^^ keyByte key i :=
  (getElem_unmaskFrom key 0 p i h).trans (by rw [Nat.zero_add])

theorem byteAt_eq_getElem {s : List Byte} {i : Nat} (h : i < s.length) : byteAt s i = s[i] :=
  (List.getElem_eq_getD 0).symm

theorem byteAt_unmask (key : MaskKey) {p : List Byte} {i : Nat} (h : i < p.length) :
    byteAt (unmask p key) i = byteAt p i ^^^ keyByte key i := by
  rw [byteAt_eq_getElem (by simpa using h), getElem_unmask, byteAt_eq_getElem h]

theorem unmask_zero_key (p : List Byte) : unmask p ⟨0, 0, 0, 0⟩ = p := by
  refine List.ext_getElem (unmask_length ..) fun i _ _ => ?_
  rw [getElem_unmask, keyByte_zero]
  exact BitVec.xor_zero

/-- Settles O7: the byte at an index is `byteAt_unmask`, with the key byte read as `keyByte_eq_byteAt` says. -/
theorem unmaskXorsEachByteWithItsKeyByte : Obligations.UnmaskXorsEachByteWithItsKeyByte := by
  refine fun p key => ⟨unmask_length p key, fun i hi => ?_, rfl, unmask_zero_key p⟩
  rw [byteAt_unmask key hi, keyByte_eq_byteAt]

/-- Settles O8: both passes meet the same key byte at an index, and `(a ^^^ b) ^^^ b = a`. -/
theorem unmaskTwiceIsIdentity : Obligations.UnmaskTwiceIsIdentity := by
  refine fun p key => List.ext_getElem (by simp) fun i _ _ => ?_
  rw [getElem_unmask, getElem_unmask, BitVec.xor_assoc, BitVec.xor_self, BitVec.xor_zero]

end Sys2Proof.Machine
end

section

/-! # The close frame (spec/44_frame_encoder.md R194) -/

namespace Sys2Proof.Machine

theorem be16_eq_bytes (v : BitVec 16) : be16 v = [BitVec.ofNat 8 (v.toNat / 256), BitVec.ofNat 8 v.toNat] := by
  simpa using be16_ofNat v.toNat

@[simp] theorem closePayload_length (code : Word) (reason : List Byte) :
    (closePayload code reason).length = 2 + reason.length := by
  simp [closePayload]

theorem encodeClose_eq (code : Word) (reason : List Byte) :
    encodeClose code reason = 0x88 :: (txLengthField (2 + reason.length) ++ closePayload code reason) := by
  rw [encodeClose, encodeFrame, closePayload_length, headerByte0_final]
  rfl

theorem encodeClose_of_le {code : Word} {reason : List Byte} (h : reason.length ≤ 123) :
    encodeClose code reason = 0x88 :: BitVec.ofNat 8 (2 + reason.length) :: closePayload code reason := by
  rw [encodeClose_eq, txLengthField_of_le (by omega)]
  rfl

theorem encodeClose_of_16 {code : Word} {reason : List Byte} (hlow : 124 ≤ reason.length)
    (hhigh : reason.length ≤ 65533) :
    encodeClose code reason
      = 0x88 :: 0x7E :: (be16 (BitVec.ofNat 16 (2 + reason.length)) ++ closePayload code reason) := by
  rw [encodeClose_eq, txLengthField_of_16 (by omega) (by omega)]
  rfl

/-- Settles O10: the code's two bytes are `be16_eq_bytes`; they count in the payload, so the short form ends at 123 reason
bytes (`encodeClose_of_le`) and the 16-bit form follows (`encodeClose_of_16`). -/
theorem closeFrameLayout : Obligations.CloseFrameLayout := by
  refine fun code reason => ⟨?_, fun hshort => ?_, fun hlow hhigh => ?_⟩
  · rw [encodeClose, closePayload, be16_eq_bytes]
  · rw [encodeClose_of_le hshort]
    refine ⟨rfl, ?_⟩
    simp only [List.length_cons, closePayload_length]
    omega
  · rw [encodeClose_of_16 hlow hhigh]
    refine ⟨rfl, ?_⟩
    simp only [List.length_cons, List.length_append, be16_length, closePayload_length]
    omega

end Sys2Proof.Machine
end

section

/-! # Endings, resets and rows: the model's operations in the words of the statements -/

namespace Sys2Proof.Machine

/-! ### The endings of a session and of a message -/

/-- An ended state keeps nothing of the state before but the output, the events to come and the port. -/
theorem endedWith_congr (events : List OutputEvent) (field : List Byte) {s t : State} (ho : t.output = s.output)
    (hi : t.inputs = s.inputs) (hr : t.request = s.request) :
    endedWith events field t = endedWith events field s := by
  simp [endedWith, ho, hi, hr]

/-- R250. -/
theorem raiseClose_eq_closedWith (code : Word) (reason : List Byte) (s : State) :
    raiseClose code reason s = closedWith code reason s := by
  rw [raiseClose_eq, closePayload_length]
  rfl

@[simp] theorem raiseUnmasked_eq (s : State) :
    raiseUnmasked s = closedWith config.codeUnmasked config.reasonUnmasked s := raiseClose_eq_closedWith ..

@[simp] theorem raisePingPong_eq (s : State) : raisePingPong s = closedWith 1003 config.reasonPingPong s :=
  raiseClose_eq_closedWith ..

@[simp] theorem raiseTooBig_eq (s : State) : raiseTooBig s = closedWith 1009 config.reasonTooBig s :=
  raiseClose_eq_closedWith ..

@[simp] theorem raiseEmpty_eq (s : State) : raiseEmpty s = closedWith 1008 config.reasonEmpty s :=
  raiseClose_eq_closedWith ..

@[simp] theorem raiseNoStatus_eq (s : State) : raiseNoStatus s = closedWith 1008 config.reasonNoStatus s :=
  raiseClose_eq_closedWith ..

theorem goAway_eq_endedSilently (s : State) : goAway s = endedSilently s := rfl

theorem completeMessage_eq_messageEchoed (s : State) : completeMessage s = messageEchoed s.fragments.flatten s := rfl

/-! ### The close handler (spec/42_close_handler.md) -/

/-- What the close handler answers to `first`, the first fragment where there is one; of `s` only what an ended state keeps
is read. -/
def closeAnswer (first : Option (List Byte)) (s : State) : State :=
  match first with
  | none => closedWith 1008 config.reasonNoStatus s
  | some c =>
    if c.length < 2 then closedWith 1008 config.reasonNoStatus s
    else if closeCode c = 1001 then endedSilently s
    else closedWith (closeCode c) config.reasonFarewell s

theorem handleClose_eq (s : State) : handleClose s = closeAnswer s.fragments.head? s := by
  unfold handleClose closeAnswer firstFragment
  simp only [raiseNoStatus_eq, raiseClose_eq_closedWith, goAway_eq_endedSilently]
  rfl

theorem closeAnswer_of_short {c : List Byte} (h : c.length < 2) (s : State) :
    closeAnswer (some c) s = closedWith 1008 config.reasonNoStatus s := if_pos h

theorem closeCode_cons_cons (a b : Byte) (r : List Byte) :
    closeCode (a :: b :: r) = BitVec.ofNat 16 (a.toNat * 256 + b.toNat) := by
  simp [closeCode, beValue]

/-- Two bytes fit the 16 bits of a code. -/
theorem closeCode_eq_1001_iff (a b : Byte) (r : List Byte) :
    closeCode (a :: b :: r) = 1001 ↔ a.toNat * 256 + b.toNat = 1001 := by
  have ha := a.isLt
  have hb := b.isLt
  rw [closeCode_cons_cons, ← BitVec.toNat_inj, BitVec.toNat_ofNat, Nat.mod_eq_of_lt (by omega)]
  rfl

theorem closeAnswer_of_1001 {a b : Byte} (r : List Byte) (h : a.toNat * 256 + b.toNat = 1001) (s : State) :
    closeAnswer (some (a :: b :: r)) s = endedSilently s := by
  have hlen : ¬ (a :: b :: r).length < 2 := by simp
  rw [closeAnswer, if_neg hlen, if_pos ((closeCode_eq_1001_iff a b r).2 h)]

theorem closeAnswer_of_code {a b : Byte} (r : List Byte) (h : a.toNat * 256 + b.toNat ≠ 1001) (s : State) :
    closeAnswer (some (a :: b :: r)) s
      = closedWith (BitVec.ofNat 16 (a.toNat * 256 + b.toNat)) config.reasonFarewell s := by
  have hlen : ¬ (a :: b :: r).length < 2 := by simp
  rw [closeAnswer, if_neg hlen, if_neg (mt (closeCode_eq_1001_iff a b r).1 h), closeCode_cons_cons]

/-- R170: every answer ends the session. -/
theorem closeAnswer_cases (first : Option (List Byte)) (s : State) :
    (∃ code reason, closeAnswer first s = closedWith code reason s) ∨ closeAnswer first s = endedSilently s := by
  unfold closeAnswer
  split
  · exact .inl ⟨_, _, rfl⟩
  · split
    · exact .inl ⟨_, _, rfl⟩
    · split
      · exact .inr rfl
      · exact .inl ⟨_, _, rfl⟩

theorem closeAnswer_congr (first : Option (List Byte)) {s t : State} (ho : t.output = s.output)
    (hi : t.inputs = s.inputs) (hr : t.request = s.request) (he : t.encoderLength = s.encoderLength) :
    closeAnswer first t = closeAnswer first s := by
  have hended : ∀ events field, endedWith events field t = endedWith events field s :=
    fun _ _ => endedWith_congr _ _ ho hi hr
  unfold closeAnswer closedWith endedSilently
  simp only [hended, he]

/-! ### The rows of the inbound frames -/

/-- `i` is the row of a frame `f` with opcode `op` that is read to its end: a data frame or a CLOSE frame (R98). -/
def IsFrameRow (i : Instr) (op : BitVec 4) (f : RxFrame) : Prop :=
  IsDataRow i op f ∨ (i = .rxClose f ∧ op = 0x8)

theorem IsDataRow.exec_eq {i : Instr} {op : BitVec 4} {f : RxFrame} (h : IsDataRow i op f) (s : State) :
    exec i s = whenLive s (.next (dataFrame op f s)) := by
  rcases h with ⟨rfl, rfl⟩ | ⟨rfl, rfl⟩ | ⟨rfl, rfl⟩ | ⟨rfl, rfl⟩ | ⟨rfl, rfl⟩ | ⟨rfl, rfl⟩ | ⟨rfl, rfl⟩ | ⟨rfl, rfl⟩ |
    ⟨rfl, rfl⟩ | ⟨rfl, rfl⟩ | ⟨rfl, rfl⟩ | ⟨rfl, rfl⟩ | ⟨rfl, rfl⟩ <;> rfl

/-- A row's port, range, code and place in the decoder are those of its opcode. -/
theorem IsFrameRow.row_facts {i : Instr} {op : BitVec 4} {f : RxFrame} (h : IsFrameRow i op f) :
    i.port = .rx ∧ i.wf = f.wf ∧ encode i = encodeFrameRow op f ∧ (frameRow op).map (· f) = some i ∧
      isPingPong op = false := by
  rcases h with (⟨rfl, rfl⟩ | ⟨rfl, rfl⟩ | ⟨rfl, rfl⟩ | ⟨rfl, rfl⟩ | ⟨rfl, rfl⟩ | ⟨rfl, rfl⟩ | ⟨rfl, rfl⟩ |
    ⟨rfl, rfl⟩ | ⟨rfl, rfl⟩ | ⟨rfl, rfl⟩ | ⟨rfl, rfl⟩ | ⟨rfl, rfl⟩ | ⟨rfl, rfl⟩) | ⟨rfl, rfl⟩ <;>
    exact ⟨rfl, rfl, rfl, rfl, rfl⟩

theorem IsDataRow.wf_eq {i : Instr} {op : BitVec 4} {f : RxFrame} (h : IsDataRow i op f) : i.wf = f.wf :=
  (IsFrameRow.row_facts (.inl h)).2.1

theorem IsDataRow.opcode_ne_close {i : Instr} {op : BitVec 4} {f : RxFrame} (h : IsDataRow i op f) : op ≠ 0x8 := by
  rcases h with ⟨rfl, rfl⟩ | ⟨rfl, rfl⟩ | ⟨rfl, rfl⟩ | ⟨rfl, rfl⟩ | ⟨rfl, rfl⟩ | ⟨rfl, rfl⟩ | ⟨rfl, rfl⟩ | ⟨rfl, rfl⟩ |
    ⟨rfl, rfl⟩ | ⟨rfl, rfl⟩ | ⟨rfl, rfl⟩ | ⟨rfl, rfl⟩ | ⟨rfl, rfl⟩ <;> decide

/-- R98: an opcode is PING or PONG, of which two bytes are read, or has the row of a frame read to its end. -/
theorem frameRow_cases (op : BitVec 4) :
    (frameRow op = none ∧ (op = 0x9 ∨ op = 0xA)) ∨
      ∃ row, frameRow op = some row ∧ ∀ f, IsFrameRow (row f) op f := by
  have hop : op = 0 ∨ op = 1 ∨ op = 2 ∨ op = 3 ∨ op = 4 ∨ op = 5 ∨ op = 6 ∨ op = 7 ∨ op = 8 ∨ op = 9 ∨ op = 10 ∨
      op = 11 ∨ op = 12 ∨ op = 13 ∨ op = 14 ∨ op = 15 := by
    revert op; decide
  rcases hop with rfl | rfl | rfl | rfl | rfl | rfl | rfl | rfl | rfl | rfl | rfl | rfl | rfl | rfl | rfl | rfl
  case inr.inr.inr.inr.inr.inr.inr.inr.inr.inl => exact .inl ⟨rfl, .inl rfl⟩
  case inr.inr.inr.inr.inr.inr.inr.inr.inr.inr.inl => exact .inl ⟨rfl, .inr rfl⟩
  all_goals exact .inr ⟨_, rfl, fun f => by simp [IsFrameRow, IsDataRow]⟩

/-- The inbound operations, by how much of the frame is read. -/
theorem rx_forms {i : Instr} (h : i.port = .rx) :
    (∃ op f, IsFrameRow i op f) ∨ (∃ op hd, (op = 0x9 ∨ op = 0xA) ∧ i = headerRow op hd) ∨
      ∃ hd, i = .rxUnmasked hd := by
  cases i with
  | rxPing hd => exact .inr (.inl ⟨0x9, hd, .inl rfl, rfl⟩)
  | rxPong hd => exact .inr (.inl ⟨0xA, hd, .inr rfl, rfl⟩)
  | rxUnmasked hd => exact .inr (.inr ⟨hd, rfl⟩)
  | rxOp0 f | rxText f | rxBinary f | rxOp3 f | rxOp4 f | rxOp5 f | rxOp6 f | rxOp7 f | rxClose f | rxOpB f | rxOpC f
  | rxOpD f | rxOpE f | rxOpF f => exact .inl ⟨_, f, by simp [IsFrameRow, IsDataRow]; rfl⟩
  | lenLen7 v | lenLen16 v | lenLen64 v | txlenLen7 v | txlenLen16 v | txlenLen64 v | txEcho m | txClose c r
  | fsmAwaitHeader | fsmAwaitLength | fsmAwaitMaskKey | fsmAwaitPayload | fsmClosePending | fsmComplete => cases h

end Sys2Proof.Machine
end

section

/-! # The decoder and the encoder agree (spec/30_encoding.md)

Port by port, `decode…_encode` runs a decoder on the code of a well-formed operation and `decode…_sound` reads the operation's
code back from what the decoder answers. For the parts of a frame (length, key, body) both directions are one equivalence. -/

namespace Sys2Proof

open Machine

/-! ### Length fields -/

theorem lengthField_of_bytes (psi : BitVec 7) {ext : List Byte} (h : ext.length = extendedBytes psi) :
    (lengthFieldOf psi ext).wf = true ∧ lengthIndicator (lengthFieldOf psi ext) = psi ∧
      lengthExtension (lengthFieldOf psi ext) = ext := by
  unfold extendedBytes at h
  unfold lengthFieldOf
  split_ifs at h ⊢ with h16 h64
  · obtain ⟨a, b, rfl⟩ := List.length_eq_two.1 h
    exact ⟨rfl, h16.symm, be16_ofNat_beValue a b⟩
  · match ext, h with
    | [a, b, c, d, e, f, g, i], _ => exact ⟨rfl, h64.symm, be64_ofNat_beValue a b c d e f g i⟩
  · obtain rfl := List.length_eq_zero_iff.1 h
    have hshort : psi.toNat ≤ 125 := by
      have hlt := psi.isLt
      have h126 : psi.toNat ≠ 126 := fun hn => h16 (BitVec.eq_of_toNat_eq hn)
      have h127 : psi.toNat ≠ 127 := fun hn => h64 (BitVec.eq_of_toNat_eq hn)
      omega
    exact ⟨decide_eq_true hshort, rfl, rfl⟩

theorem decodeLength_eq_ok {psi : BitVec 7} {bs rest : List Byte} {len : LengthField} :
    decodeLength psi bs = .ok (len, rest) ↔
      len.wf = true ∧ lengthIndicator len = psi ∧ lengthExtension len ++ rest = bs := by
  constructor
  · intro h
    unfold decodeLength at h
    split_ifs at h with hshort
    obtain ⟨rfl, rfl⟩ :
        lengthFieldOf psi (bs.take (extendedBytes psi)) = len ∧ bs.drop (extendedBytes psi) = rest := by
      simpa using h
    obtain ⟨hwf, hpsi, hext⟩ := lengthField_of_bytes psi (ext := bs.take (extendedBytes psi)) (by simp; omega)
    exact ⟨hwf, hpsi, by rw [hext, List.take_append_drop]⟩
  · rintro ⟨hwf, rfl, rfl⟩
    exact decodeLength_parts len rest hwf

/-! ### Inbound frames -/

theorem decodeKey_eq_ok {bs rest : List Byte} {key : MaskKey} :
    decodeKey bs = .ok (key, rest) ↔ [key.k0, key.k1, key.k2, key.k3] ++ rest = bs := by
  constructor
  · intro h
    unfold decodeKey at h
    split at h
    · cases h; rfl
    · cases h
  · rintro rfl
    rfl

theorem RxFrame.wf_iff (f : RxFrame) : f.wf = true ↔ f.len.wf = true ∧ f.wire.length = f.len.toNat := by
  simp [RxFrame.wf]

/-- What stands of a masked frame behind its two header bytes (R90). -/
def frameBody (f : RxFrame) : List Byte :=
  lengthExtension f.len ++ ([f.key.k0, f.key.k1, f.key.k2, f.key.k3] ++ f.wire)

theorem encodeFrameRow_eq (op : BitVec 4) (f : RxFrame) :
    encodeFrameRow op f = headerByte0 f.fin f.rsv op :: headerByte1 true (lengthIndicator f.len) :: frameBody f := by
  simp [encodeFrameRow, frameBody]

theorem decodeBody_eq_ok {fin : Bool} {rsv : BitVec 3} {psi : BitVec 7} {bs rest : List Byte} {f : RxFrame} :
    decodeBody fin rsv psi bs = .ok (f, rest) ↔
      f.fin = fin ∧ f.rsv = rsv ∧ lengthIndicator f.len = psi ∧ f.wf = true ∧ frameBody f ++ rest = bs := by
  constructor
  · intro h
    unfold decodeBody at h
    split at h
    · cases h
    next len afterLength hlen =>
    split at h
    · cases h
    next key afterKey hkey =>
    split_ifs at h with hshort
    obtain ⟨rfl, rfl⟩ :
        (⟨fin, rsv, len, key, afterKey.take len.toNat⟩ : RxFrame) = f ∧ afterKey.drop len.toNat = rest := by
      simpa using h
    obtain ⟨hwf, hpsi, rfl⟩ := decodeLength_eq_ok.1 hlen
    obtain rfl := decodeKey_eq_ok.1 hkey
    refine ⟨rfl, rfl, hpsi, (RxFrame.wf_iff _).2 ⟨hwf, ?_⟩, ?_⟩
    · exact List.length_take_of_le (by omega)
    · simp [frameBody]
  · rintro ⟨rfl, rfl, rfl, hwf, rfl⟩
    obtain ⟨hlen, hwire⟩ := (RxFrame.wf_iff f).1 hwf
    have hlength : decodeLength (lengthIndicator f.len) (frameBody f ++ rest)
        = .ok (f.len, [f.key.k0, f.key.k1, f.key.k2, f.key.k3] ++ (f.wire ++ rest)) :=
      decodeLength_eq_ok.2 ⟨hlen, rfl, by simp [frameBody]⟩
    unfold decodeBody
    rw [hlength]
    dsimp only
    rw [decodeKey_eq_ok.2 rfl]
    dsimp only
    rw [if_neg (by rw [List.length_append]; omega), ← hwire, List.take_left, List.drop_left]

theorem decodeRx_frame {i : Instr} {op : BitVec 4} {f : RxFrame} (h : IsFrameRow i op f) (hwf : f.wf = true)
    (rest : List Byte) : decodeRx (encodeFrameRow op f ++ rest) = .ok (i, rest) := by
  obtain ⟨row, hrow, rfl⟩ : ∃ row, frameRow op = some row ∧ row f = i := by
    obtain ⟨-, -, -, hrow, -⟩ := h.row_facts
    exact Option.map_eq_some_iff.1 hrow
  have hbody : decodeBody f.fin f.rsv (lengthIndicator f.len) (frameBody f ++ rest) = .ok (f, rest) :=
    decodeBody_eq_ok.2 ⟨rfl, rfl, rfl, hwf, rfl⟩
  simp [encodeFrameRow_eq, decodeRx, hrow, hbody]

theorem encode_headerRow (op : BitVec 4) (hd : RxHeader) (h : op = 0x9 ∨ op = 0xA) :
    (headerRow op hd).port = .rx ∧ (headerRow op hd).wf = true ∧
      encode (headerRow op hd) = [headerByte0 hd.fin hd.rsv op, headerByte1 true hd.psi] := by
  rcases h with rfl | rfl <;> exact ⟨rfl, rfl, rfl⟩

theorem decodeRx_encode {i : Instr} (hp : i.port = .rx) (hwf : i.wf = true) (rest : List Byte) :
    decodeRx (encode i ++ rest) = .ok (i, rest) := by
  rcases rx_forms hp with ⟨op, f, hrow⟩ | ⟨op, hd, hop, rfl⟩ | ⟨hd, rfl⟩
  · obtain ⟨-, hwf', hcode, -⟩ := hrow.row_facts
    rw [hcode]
    exact decodeRx_frame hrow (hwf' ▸ hwf) rest
  · have hnone : frameRow op = none := by rcases hop with rfl | rfl <;> rfl
    obtain ⟨-, -, hcode⟩ := encode_headerRow op hd hop
    simp [hcode, decodeRx, hnone]
  · simp [encode, decodeRx]

theorem decodeRx_sound {bs rest : List Byte} {i : Instr} (h : decodeRx bs = .ok (i, rest)) :
    i.port = .rx ∧ i.wf = true ∧ encode i ++ rest = bs := by
  unfold decodeRx at h
  split at h
  case h_2 => cases h
  case h_1 b0 b1 more =>
  have h0 : headerByte0 (headerFin b0) (headerRsv b0) (headerOpcode b0) = b0 := headerByte0_fields b0
  split_ifs at h with hmask
  · cases h
    have h1 : headerByte1 false (headerIndicator b1) = b1 := hmask ▸ headerByte1_fields b1
    exact ⟨rfl, rfl, by simp [encode, h0, h1]⟩
  have h1 : headerByte1 true (headerIndicator b1) = b1 := by simpa [hmask] using headerByte1_fields b1
  rcases frameRow_cases (headerOpcode b0) with ⟨hnone, hop⟩ | ⟨row, hsome, hrow⟩
  · rw [hnone] at h
    cases h
    obtain ⟨hport, hwf, hcode⟩ :=
      encode_headerRow (headerOpcode b0) ⟨headerFin b0, headerRsv b0, headerIndicator b1⟩ hop
    exact ⟨hport, hwf, by simp [hcode, h0, h1]⟩
  · rw [hsome] at h
    dsimp only at h
    split at h
    · cases h
    next f after hbody =>
    cases h
    obtain ⟨hfin, hrsv, hpsi, hwf, rfl⟩ := decodeBody_eq_ok.1 hbody
    obtain ⟨hport, hwf', hcode, -⟩ := (hrow f).row_facts
    exact ⟨hport, hwf'.trans hwf, by simp [hcode, encodeFrameRow_eq, hfin, hrsv, hpsi, h0, h1]⟩

/-! ### The length forms -/

/-- Behind a clear bit 7 the codes of the ports LEN and TXLEN are length fields. -/
theorem lengthCode_eq {c : Byte} {bs rest : List Byte} {len : LengthField} (hmask : headerMask c = false)
    (hpsi : lengthIndicator len = headerIndicator c) (hext : lengthExtension len ++ rest = bs) :
    encodeLengthField len ++ rest = c :: bs := by
  have hc : headerByte1 false (headerIndicator c) = c := hmask ▸ headerByte1_fields c
  rw [encodeLengthField, hpsi, hc, List.cons_append, hext]

theorem decodeLen_encode {i : Instr} (hp : i.port = .len) (hwf : i.wf = true) (rest : List Byte) :
    decodeLen (encode i ++ rest) = .ok (i, rest) := by
  cases i with
  | lenLen7 v => simp [encode, encodeLengthField, decodeLen, decodeLength_parts (.len7 v) rest hwf]
  | lenLen16 v => simp [encode, encodeLengthField, decodeLen, decodeLength_parts (.len16 v) rest rfl]
  | lenLen64 v => simp [encode, encodeLengthField, decodeLen, decodeLength_parts (.len64 v) rest rfl]
  | _ => cases hp

theorem decodeLen_sound {bs rest : List Byte} {i : Instr} (h : decodeLen bs = .ok (i, rest)) :
    i.port = .len ∧ i.wf = true ∧ encode i ++ rest = bs := by
  unfold decodeLen at h
  split at h
  case h_2 => cases h
  case h_1 c more =>
  split_ifs at h with hmask
  have hmask : headerMask c = false := by simpa using hmask
  split at h
  case h_1 => cases h
  all_goals
    next v after hlen =>
    cases h
    obtain ⟨hwf, hpsi, hext⟩ := decodeLength_eq_ok.1 hlen
    exact ⟨rfl, hwf, lengthCode_eq hmask hpsi hext⟩

/-- An outbound length field is in its shortest form (R99). -/
def IsShortest (len : LengthField) : Prop := shortestLength len.toNat = len

theorem shortestLength_of_le {n : Nat} (h : n ≤ 125) : shortestLength n = .len7 (BitVec.ofNat 7 n) := if_pos h

theorem shortestLength_of_16 {n : Nat} (hlow : 126 ≤ n) (hhigh : n ≤ 65535) :
    shortestLength n = .len16 (BitVec.ofNat 16 n) := by
  rw [shortestLength, if_neg (by omega), if_pos hhigh]

theorem shortestLength_of_64 {n : Nat} (h : 65536 ≤ n) : shortestLength n = .len64 (BitVec.ofNat 64 n) := by
  rw [shortestLength, if_neg (by omega), if_neg (by omega)]

theorem isShortest_iff (len : LengthField) :
    IsShortest len ↔
      match len with
      | .len7 v => v.toNat ≤ 125
      | .len16 v => 126 ≤ v.toNat
      | .len64 v => 65536 ≤ v.toNat := by
  have h16 : ∀ v : BitVec 16, v.toNat ≤ 65535 := fun v => Nat.le_of_lt_succ v.isLt
  unfold IsShortest
  rcases Nat.lt_or_ge len.toNat 126 with hlow | hlow
  · rw [shortestLength_of_le (by omega)]
    cases len <;> simp [LengthField.toNat] at hlow ⊢ <;> omega
  rcases Nat.lt_or_ge len.toNat 65536 with hhigh | hhigh
  · rw [shortestLength_of_16 hlow (by omega)]
    cases len <;> simp [LengthField.toNat] at hlow hhigh ⊢ <;> omega
  · rw [shortestLength_of_64 hhigh]
    cases len <;> simp [LengthField.toNat] at hhigh ⊢ <;> grind

theorem IsShortest.wf {len : LengthField} (h : IsShortest len) : len.wf = true := by
  cases len with
  | len7 v => exact decide_eq_true ((isShortest_iff _).1 h)
  | len16 v => rfl
  | len64 v => rfl

theorem isShortest_shortestLength {n : Nat} (h : n < 2 ^ 64) : IsShortest (shortestLength n) := by
  rw [IsShortest, shortestLength_toNat h]

theorem decodeShortest_sound {c : Byte} {bs rest : List Byte} {len : LengthField}
    (h : decodeShortest c bs = .ok (len, rest)) : IsShortest len ∧ encodeLengthField len ++ rest = c :: bs := by
  unfold decodeShortest at h
  split_ifs at h with hmask
  have hmask : headerMask c = false := by simpa using hmask
  split at h
  case h_1 => cases h
  case h_2 v after hlen =>
    cases h
    obtain ⟨hwf, hpsi, hext⟩ := decodeLength_eq_ok.1 hlen
    exact ⟨(isShortest_iff _).2 (of_decide_eq_true hwf), lengthCode_eq hmask hpsi hext⟩
  case h_3 v after hlen =>
    split_ifs at h with hlong
    cases h
    obtain ⟨-, hpsi, hext⟩ := decodeLength_eq_ok.1 hlen
    exact ⟨(isShortest_iff _).2 (by omega), lengthCode_eq hmask hpsi hext⟩
  case h_4 v after hlen =>
    split_ifs at h with hlong
    cases h
    obtain ⟨-, hpsi, hext⟩ := decodeLength_eq_ok.1 hlen
    exact ⟨(isShortest_iff _).2 (by omega), lengthCode_eq hmask hpsi hext⟩

theorem decodeShortest_parts {len : LengthField} (h : IsShortest len) (rest : List Byte) :
    decodeShortest (headerByte1 false (lengthIndicator len)) (lengthExtension len ++ rest) = .ok (len, rest) := by
  unfold decodeShortest
  rw [headerMask_headerByte1, if_neg Bool.false_ne_true, headerIndicator_headerByte1, decodeLength_parts len rest h.wf]
  cases len with
  | len7 v => rfl
  | len16 v => exact if_neg (Nat.not_lt.2 ((isShortest_iff _).1 h))
  | len64 v => exact if_neg (Nat.not_lt.2 ((isShortest_iff _).1 h))

theorem decodeTxlen_encode {i : Instr} (hp : i.port = .txlen) (hwf : i.wf = true) (rest : List Byte) :
    decodeTxlen (encode i ++ rest) = .ok (i, rest) := by
  cases i with
  | txlenLen7 v =>
    have hlen := decodeShortest_parts ((isShortest_iff (.len7 v)).2 (of_decide_eq_true hwf)) rest
    simp [encode, encodeLengthField, decodeTxlen, hlen]
  | txlenLen16 v =>
    have hlen := decodeShortest_parts ((isShortest_iff (.len16 v)).2 (of_decide_eq_true hwf)) rest
    simp [encode, encodeLengthField, decodeTxlen, hlen]
  | txlenLen64 v =>
    have hlen := decodeShortest_parts ((isShortest_iff (.len64 v)).2 (of_decide_eq_true hwf)) rest
    simp [encode, encodeLengthField, decodeTxlen, hlen]
  | _ => cases hp

theorem decodeTxlen_sound {bs rest : List Byte} {i : Instr} (h : decodeTxlen bs = .ok (i, rest)) :
    i.port = .txlen ∧ i.wf = true ∧ encode i ++ rest = bs := by
  unfold decodeTxlen at h
  split at h
  case h_2 => cases h
  case h_1 c more =>
  split at h
  case h_1 => cases h
  case h_2 v after hlen =>
    cases h
    obtain ⟨hshort, hcode⟩ := decodeShortest_sound hlen
    exact ⟨rfl, decide_eq_true ((isShortest_iff _).1 hshort), hcode⟩
  case h_3 v after hlen =>
    cases h
    obtain ⟨hshort, hcode⟩ := decodeShortest_sound hlen
    exact ⟨rfl, decide_eq_true ((isShortest_iff _).1 hshort), hcode⟩
  case h_4 v after hlen =>
    cases h
    obtain ⟨hshort, hcode⟩ := decodeShortest_sound hlen
    exact ⟨rfl, decide_eq_true ((isShortest_iff _).1 hshort), hcode⟩

/-! ### Outbound frames -/

/-- What the decoder answers on byte 0, a length field in its shortest form and that many payload bytes is the row's
answer on the payload. -/
theorem decodeTx_frame {b0 : Byte} {v : List Byte} {i : Instr} (hb : b0 = 0x82 ∨ b0 = 0x88) (hv : v.length < 2 ^ 64)
    (hrow : outboundRow b0 v = .ok i) (rest : List Byte) :
    decodeTx (b0 :: (encodeLengthField (shortestLength v.length) ++ (v ++ rest))) = .ok (i, rest) := by
  have hlength := decodeShortest_parts (isShortest_shortestLength hv) (v ++ rest)
  have hb0 : ¬ ((b0 ≠ 0x82 ∧ b0 ≠ 0x88) ∨
      headerMask (headerByte1 false (lengthIndicator (shortestLength v.length))) = true) := by
    rw [headerMask_headerByte1]
    rcases hb with rfl | rfl <;> decide
  rw [encodeLengthField, List.cons_append, decodeTx, if_neg hb0, hlength]
  dsimp only
  rw [shortestLength_toNat hv, if_neg (by simp), List.take_left, List.drop_left, hrow]

theorem outboundRow_echo {m : List Byte} (h : (Instr.txEcho m).wf = true) :
    outboundRow 0x82 m = .ok (.txEcho m) ∧ m.length < 2 ^ 64 := by
  obtain ⟨hlow, hhigh⟩ : 1 ≤ m.length ∧ m.length ≤ config.maxMessageSize := by simpa [Instr.wf] using h
  rw [outboundRow, if_pos rfl, if_neg (by omega)]
  rw [config_maxMessageSize] at hhigh
  exact ⟨rfl, by omega⟩

theorem outboundRow_close (code : Word) (reason : List Byte) :
    outboundRow 0x88 (be16 code ++ reason) = .ok (.txClose code reason) := by
  have hcode : (be16 code ++ reason).take 2 = be16 code := List.take_left' rfl
  have hreason : (be16 code ++ reason).drop 2 = reason := List.drop_left' rfl
  rw [outboundRow, if_neg (by decide), if_neg (by simp; omega), hcode, hreason, ofNat_beValue_be16]

theorem outboundRow_sound {b0 : Byte} {v : List Byte} {i : Instr} (hb : b0 = 0x82 ∨ b0 = 0x88) (hv : v.length < 2 ^ 64)
    (h : outboundRow b0 v = .ok i) :
    i.port = .tx ∧ i.wf = true ∧ encode i = b0 :: (encodeLengthField (shortestLength v.length) ++ v) := by
  unfold outboundRow at h
  rcases hb with rfl | rfl
  · rw [if_pos rfl] at h
    split_ifs at h with hsize
    cases h
    have hwf : 1 ≤ v.length ∧ v.length ≤ config.maxMessageSize := by omega
    exact ⟨rfl, by simpa [Instr.wf] using hwf, rfl⟩
  · rw [if_neg (by decide)] at h
    split_ifs at h with hsize
    cases h
    obtain ⟨a, b, reason, rfl⟩ : ∃ a b reason, v = a :: b :: reason := by
      match v, hsize with
      | a :: b :: reason, _ => exact ⟨a, b, reason, rfl⟩
      | [], h | [_], h => simp at h
    refine ⟨rfl, ?_, ?_⟩
    · simpa [Instr.wf] using hv
    · simp [encode, be16_ofNat_beValue]

theorem decodeTx_encode {i : Instr} (hp : i.port = .tx) (hwf : i.wf = true) (rest : List Byte) :
    decodeTx (encode i ++ rest) = .ok (i, rest) := by
  cases i with
  | txEcho m =>
    obtain ⟨hrow, hlen⟩ := outboundRow_echo hwf
    simpa [encode] using decodeTx_frame (.inl rfl) hlen hrow rest
  | txClose code reason =>
    have hlen : (be16 code ++ reason).length < 2 ^ 64 := by
      have := of_decide_eq_true hwf
      simp; omega
    have hcount : reason.length + 2 = (be16 code ++ reason).length := by simp [Nat.add_comm]
    simpa [encode, hcount] using decodeTx_frame (.inr rfl) hlen (outboundRow_close code reason) rest
  | _ => cases hp

theorem decodeTx_sound {bs rest : List Byte} {i : Instr} (h : decodeTx bs = .ok (i, rest)) :
    i.port = .tx ∧ i.wf = true ∧ encode i ++ rest = bs := by
  unfold decodeTx at h
  split at h
  case h_2 => cases h
  case h_1 b0 b1 more =>
  split_ifs at h with hb
  have hb : b0 = 0x82 ∨ b0 = 0x88 := by tauto
  split at h
  · cases h
  next len after hlen =>
  split_ifs at h with hshort
  split at h
  · cases h
  next row hrow =>
  cases h
  obtain ⟨hlen, hcode⟩ := decodeShortest_sound hlen
  have hcount : (after.take len.toNat).length = len.toNat := List.length_take_of_le (by omega)
  have hlt : (after.take len.toNat).length < 2 ^ 64 := by rw [hcount, ← lengthValue_toNat]; exact (lengthValue len).isLt
  obtain ⟨hport, hwf, henc⟩ := outboundRow_sound hb hlt hrow
  refine ⟨hport, hwf, ?_⟩
  rw [henc, hcount, hlen, List.cons_append, List.append_assoc, List.take_append_drop, hcode]

/-! ### The sequencer's actions -/

theorem decodeFsm_encode {i : Instr} (hp : i.port = .fsm) (rest : List Byte) :
    decodeFsm (encode i ++ rest) = .ok (i, rest) := by
  cases i with
  | fsmAwaitHeader | fsmAwaitLength | fsmAwaitMaskKey | fsmAwaitPayload | fsmClosePending | fsmComplete => rfl
  | _ => cases hp

theorem decodeFsm_sound {bs rest : List Byte} {i : Instr} (h : decodeFsm bs = .ok (i, rest)) :
    i.port = .fsm ∧ i.wf = true ∧ encode i ++ rest = bs := by
  unfold decodeFsm at h
  split at h
  case h_2 => cases h
  case h_1 c more =>
  split at h
  case h_7 => split_ifs at h
  all_goals
    next hc =>
    cases h
    refine ⟨rfl, rfl, ?_⟩
    have hcode := congrArg (BitVec.ofNat 8) hc
    rw [BitVec.ofNat_toNat, BitVec.setWidth_eq] at hcode
    rw [hcode]
    rfl

/-! ### Every port -/

theorem decode_encode {i : Instr} (hwf : i.wf = true) (rest : List Byte) :
    decode i.port (encode i ++ rest) = .ok (i, rest) := by
  cases hp : i.port with
  | rx => exact decodeRx_encode hp hwf rest
  | tx => exact decodeTx_encode hp hwf rest
  | len => exact decodeLen_encode hp hwf rest
  | txlen => exact decodeTxlen_encode hp hwf rest
  | fsm => exact decodeFsm_encode hp rest

/-- Settles O1: port by port, each decoder run on the code in the order in which the encoder puts it together. -/
theorem decodeEncodeRoundTrip : Obligations.DecodeEncodeRoundTrip := fun _ rest hwf => decode_encode hwf rest

/-- Settles O2: port by port, each decoder's tests give the operand ranges and its reads are the bytes of the code. -/
theorem decodedCodeIsItsEncoding : Obligations.DecodedCodeIsItsEncoding := by
  intro p bs rest i h
  cases p with
  | rx => exact decodeRx_sound h
  | len => exact decodeLen_sound h
  | txlen => exact decodeTxlen_sound h
  | tx => exact decodeTx_sound h
  | fsm => exact decodeFsm_sound h

/-- Settles O3: each word is run through its decoder. -/
theorem sampleWordsDecode : Obligations.SampleWordsDecode := by
  unfold Obligations.SampleWordsDecode
  decide

/-! ### The block's own frames -/

/-- The parts of a well-formed length field, read by the inbound rule (R93), give its length. -/
theorem inboundLength_parts {len : LengthField} (h : len.wf = true) :
    inboundLength (lengthIndicator len) (lengthExtension len) = lengthValue len := by
  cases len with
  | len7 v => exact if_pos (of_decide_eq_true h)
  | len16 v =>
    have : inboundLength 126 (be16 v) = (BitVec.ofNat 16 (beValue (be16 v))).zeroExtend 64 := rfl
    simpa [lengthIndicator, lengthExtension, lengthValue] using this
  | len64 v =>
    have : inboundLength 127 (be64 v) = BitVec.ofNat 64 (beValue (be64 v)) := rfl
    simpa [lengthIndicator, lengthExtension, lengthValue] using this

/-- Settles O6: the field is the code of the shortest form (`txLengthField_eq`), whose parts the inbound rule reads back. -/
theorem outboundLengthReadsBack : Obligations.OutboundLengthReadsBack := by
  intro n hn
  have hwf := (isShortest_shortestLength hn).wf
  refine ⟨headerByte1 false (lengthIndicator (shortestLength n)), lengthExtension (shortestLength n),
    txLengthField_eq n, by simp, by simp [hwf], ?_⟩
  rw [headerIndicator_headerByte1, inboundLength_parts hwf, lengthValue_toNat, shortestLength_toNat hn]

/-- Settles O9: byte 0 as a number is `headerByte0_final`; the length forms are those of `txLengthField`. -/
theorem encodeFrameLayout : Obligations.EncodeFrameLayout := by
  refine fun op v _ => ⟨fun hshort => ?_, fun hlow hhigh => ?_, fun hlong => ?_⟩ <;>
    rw [encodeFrame, headerByte0_final]
  · rw [txLengthField_of_le hshort]; rfl
  · rw [txLengthField_of_16 hlow hhigh]; rfl
  · rw [txLengthField_of_64 hlong]; rfl

/-- Settles O11: byte 1 of an outbound frame has its MASK bit clear (`txLengthField_eq`), and the inbound decoder tests that
bit first. -/
theorem outboundFrameIsUnmaskedInbound : Obligations.OutboundFrameIsUnmaskedInbound := by
  intro op v _
  refine ⟨⟨true, 0, op, lengthIndicator (shortestLength v.length)⟩,
    lengthExtension (shortestLength v.length) ++ v, ?_, rfl⟩
  simp [encodeFrame, txLengthField_eq, encodeLengthField, decode, decodeRx]

end Sys2Proof
end

section

/-! # The sequencer's actions (spec/40_decoder_states.md, spec/42_close_handler.md)

Every action waits for a number of bytes fixed by its state and then computes one next state from them. `exec_actionOf` says
so of all five at once; what an action does past its guard is `actionNext`. -/

namespace Sys2Proof.Machine

/-! ### One shape for the five actions -/

/-- How many bytes the action of `st` waits for (R127); at `s.state` it is the model's `bytesNeeded`. -/
def needed (st : DecoderState) (s : State) : Nat :=
  match st with
  | .awaitHeader  => 2
  | .awaitLength  => extendedBytes s.payloadSizeIndicator
  | .awaitMaskKey => 4
  | .awaitPayload => s.framePayloadLength.toNat
  | .closePending => 0

theorem needed_state (s : State) : needed s.state s = bytesNeeded s := rfl

/-- AWAIT_HEADER on its two bytes (R121). -/
def headerNext (b : List Byte) (s : State) : State :=
  if headerMask (byteAt b 1) = false then closedWith config.codeUnmasked config.reasonUnmasked s
  else if isPingPong (headerOpcode (byteAt b 0)) = true then closedWith 1003 config.reasonPingPong s
  else { s with
    state := .awaitLength
    fin := headerFin (byteAt b 0)
    opcode := headerOpcode (byteAt b 0)
    masked := true
    payloadSizeIndicator := headerIndicator (byteAt b 1) }

/-- AWAIT_PAYLOAD on its payload (R124). -/
def payloadNext (b : List Byte) (s : State) : State :=
  if s.opcode = 0x8 then { s with
    state := .closePending
    fragments := if b = [] then s.fragments else s.fragments ++ [unmask b s.maskKey]
    framesReceived := s.framesReceived + 1 }
  else if s.framePayloadLength = 0 then closedWith 1008 config.reasonEmpty s
  else if s.fin = true then messageEchoed (s.fragments.flatten ++ unmask b s.maskKey) s
  else { s with
    state := .awaitHeader
    fragments := s.fragments ++ [unmask b s.maskKey]
    framesReceived := s.framesReceived + 1 }

section

variable {b : List Byte} {s : State}

theorem headerNext_unmasked (hmask : headerMask (byteAt b 1) = false) :
    headerNext b s = closedWith config.codeUnmasked config.reasonUnmasked s := if_pos hmask

theorem headerNext_pingPong (hmask : headerMask (byteAt b 1) = true) (hop : isPingPong (headerOpcode (byteAt b 0)) = true) :
    headerNext b s = closedWith 1003 config.reasonPingPong s := by
  rw [headerNext, if_neg (by simp [hmask]), if_pos hop]

theorem headerNext_taken (hmask : headerMask (byteAt b 1) = true) (hop : isPingPong (headerOpcode (byteAt b 0)) = false) :
    headerNext b s = { s with
      state := .awaitLength
      fin := headerFin (byteAt b 0)
      opcode := headerOpcode (byteAt b 0)
      masked := true
      payloadSizeIndicator := headerIndicator (byteAt b 1) } := by
  rw [headerNext, if_neg (by simp [hmask]), if_neg (by simp [hop])]

theorem payloadNext_close (hop : s.opcode = 0x8) :
    payloadNext b s = { s with
      state := .closePending
      fragments := if b = [] then s.fragments else s.fragments ++ [unmask b s.maskKey]
      framesReceived := s.framesReceived + 1 } := if_pos hop

theorem payloadNext_empty (hop : s.opcode ≠ 0x8) (hlen : s.framePayloadLength = 0) :
    payloadNext b s = closedWith 1008 config.reasonEmpty s := by
  rw [payloadNext, if_neg hop, if_pos hlen]

theorem payloadNext_final (hop : s.opcode ≠ 0x8) (hlen : s.framePayloadLength ≠ 0) (hfin : s.fin = true) :
    payloadNext b s = messageEchoed (s.fragments.flatten ++ unmask b s.maskKey) s := by
  rw [payloadNext, if_neg hop, if_neg hlen, if_pos hfin]

theorem payloadNext_stored (hop : s.opcode ≠ 0x8) (hlen : s.framePayloadLength ≠ 0) (hfin : s.fin = false) :
    payloadNext b s = { s with
      state := .awaitHeader
      fragments := s.fragments ++ [unmask b s.maskKey]
      framesReceived := s.framesReceived + 1 } := by
  rw [payloadNext, if_neg hop, if_neg hlen, if_neg (by simp [hfin])]

end

/-- What the action of `st` does with its bytes `b`, which have left the queue (R121 to R124, R165). -/
def actionNext (st : DecoderState) (b : List Byte) (s : State) : State :=
  match st with
  | .awaitHeader  => headerNext b s
  | .awaitLength  => resolveLength (inboundLength s.payloadSizeIndicator b) s
  | .awaitMaskKey => { s with state := .awaitPayload, maskKey := keyOfBytes b }
  | .awaitPayload => payloadNext b s
  | .closePending => closeAnswer s.fragments.head? s

/-- `awaitBytes` runs its continuation on the bytes it consumed and on nothing else. -/
theorem awaitBytes_congr {n : Nat} {s : State} {k k' : List Byte → State → Result}
    (h : n ≤ s.pendingChunks.length →
      k (s.pendingChunks.take n) (consumed n s) = k' (s.pendingChunks.take n) (consumed n s)) :
    awaitBytes n s k = awaitBytes n s k' := by
  unfold awaitBytes takeBytes
  split
  · rfl
  · split
    · rfl
    · next hc =>
      obtain ⟨-, hlen, rfl, rfl⟩ := consume_eq_some.1 hc
      exact h hlen

theorem execFsmAwaitHeader_eq (s : State) :
    execFsmAwaitHeader s = whenLive s (awaitBytes 2 s fun b s1 => .next (headerNext b s1)) := by
  refine congrArg (whenLive s) (awaitBytes_congr fun _ => ?_)
  dsimp only
  unfold headerNext
  simp only [raiseUnmasked_eq, raisePingPong_eq, latchHeader, writeHeader_masked, writeHeader_opcode]
  split_ifs with hmask hop
  · rfl
  · rfl
  · rw [← Bool.eq_true_of_not_eq_false hmask]
    rfl

theorem isClose_iff {op : BitVec 4} : isClose op = true ↔ op = 0x8 := beq_iff_eq

/-- The payload taken is as long as announced, so it is empty only for an empty frame. -/
theorem execFsmAwaitPayload_eq (s : State) :
    execFsmAwaitPayload s
      = whenLive s (awaitBytes s.framePayloadLength.toNat s fun b s1 => .next (payloadNext b s1)) := by
  refine congrArg (whenLive s) (awaitBytes_congr fun hlen => ?_)
  generalize hb : s.pendingChunks.take s.framePayloadLength.toNat = b
  have hcount : b.length = s.framePayloadLength.toNat := hb ▸ List.length_take_of_le hlen
  dsimp only
  simp only [storePayload_eq, unmask_eq_nil, raiseEmpty_eq, completeMessage_eq_messageEchoed]
  by_cases hop : s.opcode = 0x8
  · rw [payloadNext_close (s := consumed _ s) hop, if_pos (isClose_iff.2 hop)]
    rfl
  rw [if_neg (mt isClose_iff.1 hop)]
  by_cases hlen0 : s.framePayloadLength = 0
  · rw [payloadNext_empty (s := consumed _ s) hop hlen0, if_pos hlen0]
    rfl
  have hne : b ≠ [] := by
    rintro rfl
    exact hlen0 (BitVec.eq_of_toNat_eq hcount.symm)
  rw [if_neg hlen0, if_neg hne]
  cases hfin : s.fin
  · rw [payloadNext_stored (s := consumed _ s) hop hlen0 hfin]
    rfl
  · rw [payloadNext_final (s := consumed _ s) hop hlen0 hfin]
    rw [if_pos rfl, List.flatten_concat]
    rfl

theorem execFsmClosePending_eq (s : State) :
    execFsmClosePending s = whenLive s (awaitBytes 0 s fun b s1 => .next (actionNext .closePending b s1)) := by
  refine congrArg (whenLive s) ?_
  rw [handleClose_eq, awaitBytes, if_neg (Nat.not_lt_zero _), takeBytes, consume_zero]
  rfl

/-- Every action waits for its bytes and then does what `actionNext` says. -/
theorem exec_actionOf (st : DecoderState) (s : State) :
    exec (actionOf st) s = whenLive s (awaitBytes (needed st s) s fun b s1 => .next (actionNext st b s1)) := by
  cases st with
  | awaitHeader => exact execFsmAwaitHeader_eq s
  | awaitLength => exact congrArg (whenLive s) (awaitBytes_congr fun _ => rfl)
  | awaitMaskKey => rfl
  | awaitPayload => exact execFsmAwaitPayload_eq s
  | closePending => exact execFsmClosePending_eq s

/-- With its bytes at the front of the queue an action takes them. -/
theorem exec_actionOf_of_front (st : DecoderState) {b q : List Byte} {s : State} (hs : s.ended = false)
    (hq : s.pendingChunks = b ++ q) (hn : s.bufferedLength = s.pendingChunks.length) (hb : b.length = needed st s) :
    exec (actionOf st) s = .next (actionNext st b { s with pendingChunks := q, bufferedLength := q.length }) := by
  rw [exec_actionOf, whenLive_live _ hs, ← hb, awaitBytes_of_front _ hq hn]

/-- With too few bytes counted an action suspends (R127). -/
theorem exec_actionOf_of_short (st : DecoderState) {s : State} (hs : s.ended = false)
    (h : s.bufferedLength < needed st s) : exec (actionOf st) s = .next { s with inTransaction := false } := by
  rw [exec_actionOf, whenLive_live _ hs, awaitBytes_of_short _ h]

/-- Everything an action can answer in a live session. -/
theorem exec_actionOf_cases {st : DecoderState} {s t : State} (h : exec (actionOf st) s = .next t) :
    (s.ended = true ∧ t = s) ∨
    (s.ended = false ∧ s.bufferedLength < needed st s ∧ t = { s with inTransaction := false }) ∨
    (s.ended = false ∧ needed st s ≤ s.bufferedLength ∧ needed st s ≤ s.pendingChunks.length ∧
      t = actionNext st (s.pendingChunks.take (needed st s)) (consumed (needed st s) s)) := by
  rw [exec_actionOf] at h
  obtain ⟨he, rfl⟩ | ⟨he, h⟩ := whenLive_cases h
  · exact .inl ⟨he, rfl⟩
  obtain ⟨hshort, rfl⟩ | ⟨hcount, hheld, h⟩ := awaitBytes_cases h
  · exact .inr (.inl ⟨he, hshort, rfl⟩)
  · exact .inr (.inr ⟨he, hcount, hheld, (Host.Outcome.next.inj h).symm⟩)

/-! ### What each action does with its bytes -/

theorem actionNext_awaitHeader_cases (b : List Byte) (s : State) :
    (∃ code reason, actionNext .awaitHeader b s = closedWith code reason s) ∨
    (isPingPong (headerOpcode (byteAt b 0)) = false ∧ actionNext .awaitHeader b s = { s with
      state := .awaitLength
      fin := headerFin (byteAt b 0)
      opcode := headerOpcode (byteAt b 0)
      masked := true
      payloadSizeIndicator := headerIndicator (byteAt b 1) }) := by
  cases hmask : headerMask (byteAt b 1)
  · exact .inl ⟨_, _, headerNext_unmasked hmask⟩
  cases hop : isPingPong (headerOpcode (byteAt b 0))
  · exact .inr ⟨rfl, headerNext_taken hmask hop⟩
  · exact .inl ⟨_, _, headerNext_pingPong hmask hop⟩

theorem resolveLength_of_le {len : Length} {s : State} (hcap : s.totalPayloadLength.toNat + len.toNat ≤ 1048576) :
    resolveLength len s = { s with
      state := .awaitMaskKey
      framePayloadLength := len
      totalPayloadLength := BitVec.ofNat 64 (s.totalPayloadLength.toNat + len.toNat) } := by
  obtain ⟨hbig, -⟩ | ⟨-, h⟩ := resolveLength_cases len s
  · omega
  · rw [h, ← add_toNat_of_le hcap, BitVec.ofNat_toNat, BitVec.setWidth_eq]

theorem resolveLength_of_gt {len : Length} {s : State} (hcap : 1048576 < s.totalPayloadLength.toNat + len.toNat) :
    resolveLength len s = closedWith 1009 config.reasonTooBig s := by
  obtain ⟨-, h⟩ | ⟨hle, -⟩ := resolveLength_cases len s
  · exact h.trans (raiseTooBig_eq _)
  · omega

theorem actionNext_awaitLength_cases (b : List Byte) (s : State) :
    (1048576 < s.totalPayloadLength.toNat + (inboundLength s.payloadSizeIndicator b).toNat ∧
      actionNext .awaitLength b s = closedWith 1009 config.reasonTooBig s) ∨
    (s.totalPayloadLength.toNat + (inboundLength s.payloadSizeIndicator b).toNat ≤ 1048576 ∧
      actionNext .awaitLength b s = { s with
        state := .awaitMaskKey
        framePayloadLength := inboundLength s.payloadSizeIndicator b
        totalPayloadLength := s.totalPayloadLength + inboundLength s.payloadSizeIndicator b }) := by
  rcases resolveLength_cases (inboundLength s.payloadSizeIndicator b) s with ⟨hcap, h⟩ | ⟨hcap, h⟩
  · exact .inl ⟨hcap, h.trans (raiseTooBig_eq _)⟩
  · exact .inr ⟨hcap, h⟩

theorem actionNext_awaitPayload_cases (b : List Byte) (s : State) :
    (s.opcode = 0x8 ∧ actionNext .awaitPayload b s = { s with
      state := .closePending
      fragments := if b = [] then s.fragments else s.fragments ++ [unmask b s.maskKey]
      framesReceived := s.framesReceived + 1 }) ∨
    (s.opcode ≠ 0x8 ∧ s.framePayloadLength = 0 ∧ actionNext .awaitPayload b s = closedWith 1008 config.reasonEmpty s) ∨
    (s.opcode ≠ 0x8 ∧ s.framePayloadLength ≠ 0 ∧ s.fin = true ∧
      actionNext .awaitPayload b s = messageEchoed (s.fragments.flatten ++ unmask b s.maskKey) s) ∨
    (s.opcode ≠ 0x8 ∧ s.framePayloadLength ≠ 0 ∧ s.fin = false ∧ actionNext .awaitPayload b s = { s with
      state := .awaitHeader
      fragments := s.fragments ++ [unmask b s.maskKey]
      framesReceived := s.framesReceived + 1 }) := by
  by_cases hop : s.opcode = 0x8
  · exact .inl ⟨hop, payloadNext_close hop⟩
  by_cases hlen : s.framePayloadLength = 0
  · exact .inr (.inl ⟨hop, hlen, payloadNext_empty hop hlen⟩)
  rcases Bool.eq_false_or_eq_true s.fin with hfin | hfin
  · exact .inr (.inr (.inl ⟨hop, hlen, hfin, payloadNext_final hop hlen hfin⟩))
  · exact .inr (.inr (.inr ⟨hop, hlen, hfin, payloadNext_stored hop hlen hfin⟩))

theorem actionNext_closePending_cases (b : List Byte) (s : State) :
    (∃ code reason, actionNext .closePending b s = closedWith code reason s) ∨
      actionNext .closePending b s = endedSilently s := closeAnswer_cases _ s

/-! ### AWAIT_HEADER -/

theorem isPingPong_headerOpcode (b : Byte) :
    isPingPong (headerOpcode b) = decide (b.toNat % 16 = 9 ∨ b.toNat % 16 = 10) := by
  revert b; decide

/-- Settles O16: the header's fields as numbers pick the last branch of `actionNext`. -/
theorem awaitHeaderTakesTwoBytes : Obligations.AwaitHeaderTakesTwoBytes := by
  intro b0 b1 q s hs hq hn hmask h9 h10
  have hmask' : headerMask b1 = true := by rw [headerMask_eq_decide]; exact decide_eq_true hmask
  have hop : isPingPong (headerOpcode b0) = false := by rw [isPingPong_headerOpcode]; exact decide_eq_false (by tauto)
  refine (exec_actionOf_of_front .awaitHeader (b := [b0, b1]) hs hq hn rfl).trans ?_
  rw [← headerFin_eq_decide, ← headerOpcode_eq_ofNat, ← headerIndicator_eq_ofNat]
  exact congrArg _ (headerNext_taken (b := [b0, b1]) hmask' hop)

/-! ### AWAIT_LENGTH, AWAIT_MASK_KEY -/

/-- Settles O17: within the cap the register's sum is the natural one (`resolveLength_of_le`). -/
theorem awaitLengthAddsToTotal : Obligations.AwaitLengthAddsToTotal := by
  intro ext q s hs hq hn hext hcap
  exact (exec_actionOf_of_front .awaitLength hs hq hn hext).trans
    (congrArg _ (resolveLength_of_le (s := { s with pendingChunks := q, bufferedLength := q.length }) hcap))

/-- Settles O18: the action on its four bytes computes. -/
theorem awaitMaskKeyTakesFourBytes : Obligations.AwaitMaskKeyTakesFourBytes := fun k0 k1 k2 k3 _ _ hs hq hn =>
  exec_actionOf_of_front .awaitMaskKey (b := [k0, k1, k2, k3]) hs hq hn rfl

/-! ### AWAIT_PAYLOAD and COMPLETE -/

theorem framePayloadLength_ne_zero {w : List Byte} {s : State} (hw : w.length = s.framePayloadLength.toNat) (hne : w ≠ []) :
    s.framePayloadLength ≠ 0 := by
  intro h
  rw [h] at hw
  exact hne (List.length_eq_zero_iff.1 hw)

/-- Settles O19: the last branch of AWAIT_PAYLOAD. -/
theorem awaitPayloadStoresFragment : Obligations.AwaitPayloadStoresFragment := by
  intro w q s hs hq hn hw hne hop hfin
  have hlen := framePayloadLength_ne_zero hw hne
  exact (exec_actionOf_of_front .awaitPayload hs hq hn hw).trans (congrArg _ (payloadNext_stored hop hlen hfin))

/-- Settles O20: the CLOSE branch comes first, before FIN and the empty payload are looked at. -/
theorem awaitPayloadHandsCloseOn : Obligations.AwaitPayloadHandsCloseOn := by
  intro w q s hs hq hn hw hop
  exact (exec_actionOf_of_front .awaitPayload hs hq hn hw).trans (congrArg _ (payloadNext_close hop))

theorem exec_awaitPayload_final {w q : List Byte} {s : State} (hs : s.ended = false) (hq : s.pendingChunks = w ++ q)
    (hn : s.bufferedLength = s.pendingChunks.length) (hw : w.length = s.framePayloadLength.toNat) (hne : w ≠ [])
    (hop : s.opcode ≠ 0x8) (hfin : s.fin = true) :
    exec .fsmAwaitPayload s
      = .next (messageEchoed (s.fragments.flatten ++ unmask w s.maskKey) (consumed w.length s)) := by
  have hlen := framePayloadLength_ne_zero hw hne
  have hfront : consumed w.length s = { s with pendingChunks := q, bufferedLength := q.length } := by
    simp [consumed, hn, hq]
  rw [hfront]
  exact (exec_actionOf_of_front .awaitPayload hs hq hn hw).trans (congrArg _ (payloadNext_final hop hlen hfin))

theorem bytesStored_eq (s : State) : bytesStored s = s.fragments.flatten.length := List.length_flatten.symm

/-- INV5 in AWAIT_PAYLOAD: the message is what is stored and the frame in progress. -/
theorem message_length {w : List Byte} {s : State} (hinv : LiveInv s) (hst : s.state = .awaitPayload)
    (hw : w.length = s.framePayloadLength.toNat) :
    (s.fragments.flatten ++ unmask w s.maskKey).length = s.totalPayloadLength.toNat := by
  rw [List.length_append, unmask_length, hw, ← bytesStored_eq]
  exact hinv.stored_add (.inr hst)

theorem closeAnswer_ended (first : Option (List Byte)) (s : State) : (closeAnswer first s).ended = true := by
  rcases closeAnswer_cases first s with ⟨_, _, h⟩ | h <;> rw [h] <;> rfl

/-- An action that leaves the session live and adds output is AWAIT_PAYLOAD at the end of a message. -/
theorem output_of_action {st : DecoderState} {s t : State} (h : exec (actionOf st) s = .next t) (ht : t.ended = false) :
    t.output = s.output ∨ (st = .awaitPayload ∧ s.opcode ≠ 0x8 ∧ s.framePayloadLength ≠ 0 ∧ s.fin = true) := by
  obtain ⟨-, rfl⟩ | ⟨-, -, rfl⟩ | ⟨-, -, -, rfl⟩ := exec_actionOf_cases h
  · exact .inl rfl
  · exact .inl rfl
  generalize s.pendingChunks.take (needed st s) = b at ht ⊢
  cases st with
  | awaitHeader =>
    rcases actionNext_awaitHeader_cases b (consumed (needed .awaitHeader s) s) with ⟨_, _, hn⟩ | ⟨-, hn⟩ <;> rw [hn] at ht ⊢
    · cases ht
    · exact .inl rfl
  | awaitLength =>
    rcases actionNext_awaitLength_cases b (consumed (needed .awaitLength s) s) with ⟨-, hn⟩ | ⟨-, hn⟩ <;> rw [hn] at ht ⊢
    · cases ht
    · exact .inl rfl
  | awaitMaskKey => exact .inl rfl
  | awaitPayload =>
    rcases actionNext_awaitPayload_cases b (consumed (needed .awaitPayload s) s) with
      ⟨-, hn⟩ | ⟨-, -, hn⟩ | ⟨hop, hlen, hfin, -⟩ | ⟨-, -, -, hn⟩
    · rw [hn]; exact .inl rfl
    · rw [hn] at ht; cases ht
    · exact .inr ⟨rfl, hop, hlen, hfin⟩
    · rw [hn]; exact .inl rfl
  | closePending =>
    rw [show actionNext .closePending b _ = closeAnswer _ _ from rfl, closeAnswer_ended] at ht
    cases ht

/-- Settles O21: the final frame is `exec_awaitPayload_final`, the message's size is `message_length`, and that no other action
sends an echo is `output_of_action`. -/
theorem completeEchoesAndResets : Obligations.CompleteEchoesAndResets := by
  refine ⟨fun s hs => whenLive_live _ hs, fun w q s => exec_awaitPayload_final, fun w s hinv hst hw hne => ?_,
    fun s t ht hout => ?_⟩
  · have hlen := message_length hinv hst hw
    have hpos := List.length_pos_iff.2 hne
    have hcap := hinv.total_le
    rw [config_maxMessageSize] at hcap
    refine ⟨?_, hlen, hlen ▸ hcap⟩
    rw [List.length_append, unmask_length]
    omega
  · have hother : ∀ st, st ≠ .awaitPayload → exec (actionOf st) s ≠ .next t := fun st hst h =>
      (output_of_action h ht).elim hout fun hfinal => hst hfinal.1
    refine ⟨hother .awaitHeader nofun, hother .awaitLength nofun, hother .awaitMaskKey nofun, hother .closePending nofun, ?_⟩
    intro h
    obtain ⟨-, hop, hlen, hfin⟩ := (output_of_action (st := .awaitPayload) h ht).resolve_left hout
    exact ⟨hop, Nat.pos_of_ne_zero fun h0 => hlen (BitVec.eq_of_toNat_eq h0), hfin⟩

/-! ### CLOSE_PENDING -/

theorem exec_closePending {s : State} (hs : s.ended = false) :
    exec .fsmClosePending s = .next (closeAnswer s.fragments.head? s) := by
  rw [← handleClose_eq]
  exact whenLive_live _ hs

/-- Settles O22: each case is one of `closeAnswer`'s. -/
theorem closePendingAnswersFirstFragment : Obligations.ClosePendingAnswersFirstFragment := by
  intro s hs
  rw [exec_closePending hs]
  refine ⟨fun h => ?_, fun c fr h hc => ?_, fun a b r fr h hcode => ?_, fun a b r fr h hcode => ?_⟩ <;> rw [h]
  · rfl
  · exact congrArg _ (closeAnswer_of_short hc s)
  · exact congrArg _ (closeAnswer_of_1001 r hcode s)
  · exact congrArg _ (closeAnswer_of_code r hcode s)

/-! ### Suspension and the write map -/

/-- Settles O23: `exec_actionOf_of_short` at the need of each state. -/
theorem shortQueueSuspends : Obligations.ShortQueueSuspends := by
  intro s hs
  refine ⟨exec_actionOf_of_short .awaitHeader hs, fun hpsi h => ?_, fun hpsi h => ?_,
    exec_actionOf_of_short .awaitMaskKey hs, exec_actionOf_of_short .awaitPayload hs⟩
  · exact exec_actionOf_of_short .awaitLength hs (by rw [needed, hpsi]; exact h)
  · exact exec_actionOf_of_short .awaitLength hs (by rw [needed, hpsi]; exact h)

/-- Settles O24: a live next state is the suspended one or the one branch of `actionNext` that does not end the session; for
AWAIT_PAYLOAD the echo branch has a longer output. -/
theorem actionsWriteOnlyTheirRegisters : Obligations.ActionsWriteOnlyTheirRegisters := by
  intro s t ht
  refine ⟨fun h => ?_, fun h => ?_, fun h => ?_, fun h hout => ?_, fun h => ?_⟩
  · obtain ⟨-, rfl⟩ | ⟨-, -, rfl⟩ | ⟨-, -, -, rfl⟩ := exec_actionOf_cases (st := .awaitHeader) h
    · rfl
    · rfl
    rcases actionNext_awaitHeader_cases _ _ with ⟨_, _, hn⟩ | ⟨-, hn⟩ <;> rw [hn] at ht ⊢
    · cases ht
    · rfl
  · obtain ⟨-, rfl⟩ | ⟨-, -, rfl⟩ | ⟨-, -, -, rfl⟩ := exec_actionOf_cases (st := .awaitLength) h
    · rfl
    · rfl
    rcases actionNext_awaitLength_cases _ _ with ⟨-, hn⟩ | ⟨-, hn⟩ <;> rw [hn] at ht ⊢
    · cases ht
    · rfl
  · obtain ⟨-, rfl⟩ | ⟨-, -, rfl⟩ | ⟨-, -, -, rfl⟩ := exec_actionOf_cases (st := .awaitMaskKey) h <;> rfl
  · obtain ⟨-, rfl⟩ | ⟨-, -, rfl⟩ | ⟨-, -, -, rfl⟩ := exec_actionOf_cases (st := .awaitPayload) h
    · rfl
    · rfl
    rcases actionNext_awaitPayload_cases _ _ with ⟨-, hn⟩ | ⟨-, -, hn⟩ | ⟨-, -, -, hn⟩ | ⟨-, -, -, hn⟩ <;> rw [hn] at ht hout ⊢
    · rfl
    · cases ht
    · simp [messageEchoed, consumed] at hout
    · rfl
  · obtain ⟨he, rfl⟩ | ⟨-, hshort, -⟩ | ⟨-, -, -, rfl⟩ := exec_actionOf_cases (st := .closePending) h
    · rw [he] at ht; cases ht
    · exact Nat.not_lt_zero _ hshort
    · exact Bool.false_ne_true (ht.symm.trans (closeAnswer_ended _ _))

end Sys2Proof.Machine
end

section

/-! # Whole frames and operations by themselves (spec/45_frame_types.md, spec/30_encoding.md, spec/70_reset_and_hazards.md) -/

namespace Sys2Proof.Machine

/-! ### What a frame that is read to its end does -/

section

variable {op : BitVec 4} {f : RxFrame} {s : State}

theorem receiveFrame_tooBig (k : State → State) (hcap : 1048576 < s.totalPayloadLength.toNat + f.len.toNat) :
    receiveFrame op f k s = closedWith 1009 config.reasonTooBig s := by
  obtain ⟨s', h, ho, hi, hr⟩ := receiveFrame_of_gt op f k s hcap
  rw [h, raiseTooBig_eq]
  exact endedWith_congr _ _ ho hi hr

theorem dataFrame_empty (hcap : s.totalPayloadLength.toNat + f.len.toNat ≤ 1048576) (hlen : f.len.toNat = 0) :
    dataFrame op f s = closedWith 1008 config.reasonEmpty s := by
  rw [dataFrame, receiveFrame_of_le _ _ _ _ hcap, if_pos (lengthValue_eq_zero.2 hlen), raiseEmpty_eq]
  rfl

/-- A frame that is not empty carries a payload. -/
theorem wire_ne_nil (hwf : f.wf = true) (hlen : 0 < f.len.toNat) : f.wire ≠ [] := by
  have hwire := ((RxFrame.wf_iff f).1 hwf).2
  rintro hnil
  rw [hnil, List.length_nil] at hwire
  omega

/-- Within the cap, a payload that is not empty is stored, and a final frame then ends the message. -/
theorem dataFrame_of_le (hwf : f.wf = true) (hcap : s.totalPayloadLength.toNat + f.len.toNat ≤ 1048576)
    (hlen : 0 < f.len.toNat) :
    dataFrame op f s =
      if f.fin = true then messageEchoed (s.fragments.flatten ++ unmask f.wire f.key) s
      else { headerAndKeyWritten op f s with
        state := .awaitHeader
        fragments := s.fragments ++ [unmask f.wire f.key]
        framesReceived := s.framesReceived + 1 } := by
  have hlen0 : lengthValue f.len ≠ 0 := mt lengthValue_eq_zero.1 (by omega)
  have hwire : unmask f.wire f.key ≠ [] := mt unmask_eq_nil.1 (wire_ne_nil hwf hlen)
  rw [dataFrame, receiveFrame_of_le _ _ _ _ hcap, if_neg hlen0, storePayload_eq, if_neg hwire]
  dsimp only
  split_ifs with hfin
  · rw [completeMessage_eq_messageEchoed, List.flatten_concat]
    rfl
  · rfl

/-- Within the cap a CLOSE frame is answered from the first fragment, its own payload coming last (R166, R168). -/
theorem closeFrame_of_le (hcap : s.totalPayloadLength.toNat + f.len.toNat ≤ 1048576) :
    closeFrame f s
      = closeAnswer (if f.wire = [] then s.fragments else s.fragments ++ [unmask f.wire f.key]).head? s := by
  rw [closeFrame, receiveFrame_of_le _ _ _ _ hcap, handleClose_eq, storePayload_eq]
  simp only [unmask_eq_nil]
  exact closeAnswer_congr _ rfl rfl rfl rfl

theorem exec_rxClose (hs : s.ended = false) : exec (.rxClose f) s = .next (closeFrame f s) := whenLive_live _ hs

theorem IsDataRow.exec_live {i : Instr} (h : IsDataRow i op f) (hs : s.ended = false) :
    exec i s = .next (dataFrame op f s) := by
  rw [h.exec_eq, whenLive_live _ hs]

/-- A CLOSE frame behind stored data is answered from that data, whatever its own payload is (R168). -/
theorem exec_rxClose_interleaved {c : List Byte} {fr : List (List Byte)} (hs : s.ended = false)
    (hfr : s.fragments = c :: fr) (hcap : s.totalPayloadLength.toNat + f.len.toNat ≤ 1048576) :
    exec (.rxClose f) s = .next (closeAnswer (some c) s) := by
  rw [exec_rxClose hs, closeFrame_of_le hcap, hfr]
  split_ifs <;> rfl

/-- A CLOSE frame that is the first is answered from its own payload. -/
theorem exec_rxClose_first (hs : s.ended = false) (hfr : s.fragments = []) (hwire : f.wire ≠ [])
    (hcap : s.totalPayloadLength.toNat + f.len.toNat ≤ 1048576) :
    exec (.rxClose f) s = .next (closeAnswer (some (unmask f.wire f.key)) s) := by
  rw [exec_rxClose hs, closeFrame_of_le hcap, hfr, if_neg hwire]
  rfl

end

/-! ### Data frames -/

/-- Settles O25: `dataFrame_of_le` with FIN 0. -/
theorem dataFrameNotFinalIsStored : Obligations.DataFrameNotFinalIsStored := by
  intro i op f s hrow hwf hs hcap hlen hfin
  rw [hrow.exec_live hs, dataFrame_of_le (hrow.wf_eq ▸ hwf) hcap hlen, if_neg (by simp [hfin])]

/-- Settles O26: `dataFrame_of_le` with FIN 1. -/
theorem dataFrameFinalEchoesMessage : Obligations.DataFrameFinalEchoesMessage := by
  intro i op f s hrow hwf hs hcap hlen hfin
  rw [hrow.exec_live hs, dataFrame_of_le (hrow.wf_eq ▸ hwf) hcap hlen, if_pos hfin]

/-- Settles O34: the cap test, the length test and, in AWAIT_PAYLOAD, the CLOSE test come first. -/
theorem emptyPayloadGets1008 : Obligations.EmptyPayloadGets1008 := by
  refine ⟨fun i op f s hrow hs hcap hlen => ?_, fun s hs hlen hop => ?_⟩
  · rw [hrow.exec_live hs, dataFrame_empty (by omega) hlen]
  · have hneed : needed .awaitPayload s = 0 := congrArg BitVec.toNat hlen
    refine (exec_actionOf .awaitPayload s).trans ?_
    rw [whenLive_live _ hs, hneed, awaitBytes, if_neg (Nat.not_lt_zero _), takeBytes, consume_zero]
    exact congrArg _ (payloadNext_empty hop hlen)

/-- Settles O12: no rule reads `rsv` of a frame, and AWAIT_HEADER reads FIN and the opcode of byte 0 alone. -/
theorem rsvBitsAreIgnored : Obligations.RsvBitsAreIgnored := by
  refine ⟨fun i op f s hrow => ?_, fun f s => rfl, fun fin rsv op b1 q s hs => ?_⟩
  · obtain ⟨row, hsome, hrow0⟩ : ∃ row, frameRow op = some row ∧ ∀ g, IsFrameRow (row g) op g :=
      (frameRow_cases op).resolve_left fun hnone => by
        obtain ⟨-, -, -, hmap, -⟩ := IsFrameRow.row_facts (.inl hrow)
        rw [hnone.1] at hmap
        cases hmap
    have hdata : IsDataRow (row { f with rsv := 0 }) op { f with rsv := 0 } :=
      (hrow0 _).resolve_right fun hclose => hrow.opcode_ne_close hclose.2
    exact ⟨_, hdata, by rw [hrow.exec_eq, hdata.exec_eq]; rfl⟩
  · have htaken : ∀ r : BitVec 3,
        exec .fsmAwaitHeader { s with pendingChunks := headerByte0 fin r op :: b1 :: q, bufferedLength := q.length + 2 }
          = .next (headerNext [headerByte0 fin r op, b1] { s with pendingChunks := q, bufferedLength := q.length }) :=
      fun r => exec_actionOf_of_front .awaitHeader (b := [headerByte0 fin r op, b1]) hs rfl rfl rfl
    rw [htaken, htaken]
    simp [headerNext, byteAt]

/-! ### CLOSE frames -/

theorem exec_rxClose_empty {f : RxFrame} {s : State} (hwf : f.wf = true) (hs : s.ended = false) (hfr : s.fragments = [])
    (hlen : f.len.toNat = 0) (hcap : s.totalPayloadLength.toNat ≤ 1048576) :
    exec (.rxClose f) s = .next (closedWith 1008 config.reasonNoStatus s) := by
  have hwire : f.wire = [] := List.length_eq_zero_iff.1 (((RxFrame.wf_iff f).1 hwf).2.trans hlen)
  rw [exec_rxClose hs, closeFrame_of_le (by omega), if_pos hwire, hfr]
  rfl

/-- Settles O27: with nothing stored the first fragment is the frame's own payload, and `closeAnswer` tells its cases apart. -/
theorem closeFrameAnswersItsCode : Obligations.CloseFrameAnswersItsCode := by
  intro f s hwf hs hfr hcap
  refine ⟨fun a b r hpay => ?_, fun hlen => ?_⟩
  · have hwire : f.wire ≠ [] := mt unmask_eq_nil.2 (by rw [hpay]; exact List.cons_ne_nil _ _)
    rw [exec_rxClose_first hs hfr hwire hcap, hpay]
    exact ⟨fun h => congrArg _ (closeAnswer_of_1001 r h s), fun h => congrArg _ (closeAnswer_of_code r h s)⟩
  · rw [exec_rxClose_first hs hfr (wire_ne_nil hwf (by omega)) hcap]
    have hshort : (unmask f.wire f.key).length < 2 := by
      rw [unmask_length, ((RxFrame.wf_iff f).1 hwf).2, hlen]
      decide
    exact congrArg _ (closeAnswer_of_short hshort s)

/-- Settles O28: AWAIT_PAYLOAD appends a payload unless it is empty, so `fragments` are empty afterwards only if nothing was
there and nothing came. -/
theorem closeWithoutPayloadGets1008 : Obligations.CloseWithoutPayloadGets1008 := by
  refine ⟨fun f s => exec_rxClose_empty, fun w q s t hs hq hn hw hop h => ?_⟩
  rw [awaitPayloadHandsCloseOn w q s hs hq hn hw hop] at h
  cases h
  by_cases hne : w = [] <;> simp [hne]

/-- Settles O29: `closeAnswer` reads the first fragment and nothing else that the statements change. -/
theorem closeReadsFirstFragment : Obligations.CloseReadsFirstFragment := by
  refine ⟨fun s c fr hs hfr => ?_, fun f s hwf hs hfr hlen hcap => ?_, fun f s c fr hwf hs hfr hcap => ?_⟩
  · rw [exec_closePending hs, exec_closePending (s := { s with fragments := [c] }) hs, hfr]
    exact congrArg _ (closeAnswer_congr (some c) rfl rfl rfl rfl)
  · rw [exec_rxClose_first hs hfr (wire_ne_nil hwf hlen) hcap,
      exec_closePending (s := { s with fragments := [unmask f.wire f.key] }) hs]
    exact congrArg _ (closeAnswer_congr _ rfl rfl rfl rfl)
  · rw [exec_rxClose_interleaved hs hfr hcap, exec_closePending (s := { s with fragments := [c] }) hs]
    exact congrArg _ (closeAnswer_congr _ rfl rfl rfl rfl)

/-- Settles O30: the first stored fragment answers, and `closeAnswer` tells its codes apart. -/
theorem interleavedCloseReadsFirstFragment : Obligations.InterleavedCloseReadsFirstFragment := by
  intro f a b r fr s hwf hs hfr hcap
  rw [exec_rxClose_interleaved hs hfr hcap]
  exact ⟨fun h => congrArg _ (closeAnswer_of_1001 r h s), fun h => congrArg _ (closeAnswer_of_code r h s)⟩

/-! ### Frames judged on their header -/

/-- Settles O31: the opcode test of AWAIT_HEADER, after the mask test. -/
theorem pingAndPongGet1003 : Obligations.PingAndPongGet1003 := by
  have hframe : ∀ op hd s, controlHeader op hd s = closedWith 1003 config.reasonPingPong s := fun op hd s => by
    rw [controlHeader, raisePingPong_eq]
    rfl
  refine ⟨fun h s hs => ⟨?_, ?_⟩, fun b0 b1 q s hs hq hn hmask hop => ?_⟩
  · exact (whenLive_live _ hs).trans (congrArg _ (hframe ..))
  · exact (whenLive_live _ hs).trans (congrArg _ (hframe ..))
  · have hmask' : headerMask b1 = true := by rw [headerMask_eq_decide]; exact decide_eq_true hmask
    have hop' : isPingPong (headerOpcode b0) = true := by rw [isPingPong_headerOpcode]; exact decide_eq_true hop
    exact (exec_actionOf_of_front .awaitHeader (b := [b0, b1]) hs hq hn rfl).trans
      (congrArg _ (headerNext_pingPong (b := [b0, b1]) hmask' hop'))

/-- Settles O32: the mask test of AWAIT_HEADER comes before the opcode is looked at. -/
theorem unmaskedFrameEndsSession : Obligations.UnmaskedFrameEndsSession := by
  refine ⟨fun h s hs => ?_, fun b0 b1 q s hs hq hn hmask => ?_⟩
  · exact (whenLive_live _ hs).trans (congrArg _ (raiseUnmasked_eq _))
  · have hmask' : headerMask b1 = false := by rw [headerMask_eq_decide]; exact decide_eq_false (by omega)
    exact (exec_actionOf_of_front .awaitHeader (b := [b0, b1]) hs hq hn rfl).trans
      (congrArg _ (headerNext_unmasked (b := [b0, b1]) hmask'))

/-! ### The inbound length forms -/

/-- A form's value widened with zeros is the same number. -/
theorem zeroExtend_toNat {w : Nat} (v : BitVec w) (hw : w ≤ 64) : (v.zeroExtend 64).toNat = v.toNat := by
  rw [BitVec.toNat_setWidth, Nat.mod_eq_of_lt (v.isLt.trans_le (Nat.pow_le_pow_right Nat.zero_lt_two hw))]

theorem resolveLength_form_of_le {w : Nat} (v : BitVec w) (hw : w ≤ 64) {s : State}
    (hcap : s.totalPayloadLength.toNat + v.toNat ≤ 1048576) :
    resolveLength (v.zeroExtend 64) s = { s with
      state := .awaitMaskKey
      framePayloadLength := BitVec.ofNat 64 v.toNat
      totalPayloadLength := BitVec.ofNat 64 (s.totalPayloadLength.toNat + v.toNat) } := by
  rw [resolveLength_of_le (by rw [zeroExtend_toNat v hw]; exact hcap), zeroExtend_toNat v hw, BitVec.ofNat_toNat]

/-- Settles O35: `resolveLength` within the cap, on the value of each form. -/
theorem lengthFormsResolve : Obligations.LengthFormsResolve :=
  ⟨fun v _ hs hcap => (whenLive_live _ hs).trans (congrArg _ (resolveLength_form_of_le v (by decide) hcap)),
    fun v _ hs hcap => (whenLive_live _ hs).trans (congrArg _ (resolveLength_form_of_le v (by decide) hcap)),
    fun _ _ hs hcap => (whenLive_live _ hs).trans (congrArg _ (resolveLength_of_le hcap))⟩

/-- Settles O33: whole frames by `receiveFrame_tooBig`, the length forms and AWAIT_LENGTH by `resolveLength_of_gt`. -/
theorem oversizedMessageGets1009 : Obligations.OversizedMessageGets1009 := by
  refine ⟨fun i op f s hrow hs hcap => ?_, fun v s hs hcap => ?_, fun v s hs hcap => ?_, fun v s hs hcap => ?_,
    fun ext q s hs hq hn hext hcap => ?_⟩
  · rcases hrow with hrow | rfl
    · rw [hrow.exec_live hs, dataFrame, receiveFrame_tooBig _ hcap]
    · rw [exec_rxClose hs, closeFrame, receiveFrame_tooBig _ hcap]
  · rw [← zeroExtend_toNat v (by decide)] at hcap
    exact (whenLive_live _ hs).trans (congrArg _ (resolveLength_of_gt hcap))
  · rw [← zeroExtend_toNat v (by decide)] at hcap
    exact (whenLive_live _ hs).trans (congrArg _ (resolveLength_of_gt hcap))
  · exact (whenLive_live _ hs).trans (congrArg _ (resolveLength_of_gt hcap))
  · exact (exec_actionOf_of_front .awaitLength hs hq hn hext).trans
      (congrArg _ (resolveLength_of_gt (s := { s with pendingChunks := q, bufferedLength := q.length }) hcap))

/-! ### Outbound operations -/

/-- Settles O36: each form's bytes as numbers. -/
theorem outboundLengthFormsStand : Obligations.OutboundLengthFormsStand := by
  refine ⟨fun n s hs => ?_, fun n s hs => ?_, fun n s hs => ?_⟩ <;> refine (whenLive_live _ hs).trans ?_
  · have hfield : txLength7 n = [BitVec.ofNat 8 n.toNat] := by
      rw [txLength7, ← headerByte1_ofNat n.toNat n.isLt, BitVec.ofNat_toNat, BitVec.setWidth_eq]
    rw [hfield]
    rfl
  · have hfield := be16_eq_bytes n
    rw [txLength16, hfield]
    rfl
  · have hfield := be64_ofNat n.toNat
    rw [BitVec.ofNat_toNat, BitVec.setWidth_eq] at hfield
    rw [txLength64, hfield]
    rfl

/-- The frame the block writes is the code of its row, for both outbound opcodes. -/
theorem encodeFrame_eq (op : BitVec 4) (v : List Byte) :
    encodeFrame op v = headerByte0 true 0 op :: (encodeLengthField (shortestLength v.length) ++ v) := by
  rw [encodeFrame, txLengthField_eq]

/-- Settles O37: the frame written is the code of TX.ECHO (`encodeFrame_eq`). -/
theorem echoIsOneBinaryWrite : Obligations.EchoIsOneBinaryWrite := by
  intro m s hs _
  have hcode : encodeFrame 0x2 m = encode (.txEcho m) := encodeFrame_eq 0x2 m
  rw [← hcode]
  exact whenLive_live _ hs

/-- Settles O38: the frame written is the code of TX.CLOSE (`encodeFrame_eq`), and R250 does the rest. -/
theorem closeFrameThenEnd : Obligations.CloseFrameThenEnd := by
  intro code reason s hs _
  have hcode : encodeClose code reason = encode (.txClose code reason) := by
    rw [encodeClose, encodeFrame_eq, closePayload_length, Nat.add_comm, closePayload, ← List.append_assoc]
    rfl
  rw [← hcode]
  exact (whenLive_live _ hs).trans (congrArg _ (raiseClose_eq_closedWith code reason s))

/-! ### Resets -/

/-- Settles O39: field by field, by computation. -/
theorem fullResetClearsAllButEndedAndOutput : Obligations.FullResetClearsAllButEndedAndOutput := fun _ => rfl

/-- Settles O40: field by field, by computation. -/
theorem perMessageResetKeepsQueue : Obligations.PerMessageResetKeepsQueue := fun _ => rfl

/-- Settles O41: the reset state is a literal. -/
theorem sessionCreationState : Obligations.SessionCreationState := ⟨rfl, memory_wf_reset, rfl⟩

end Sys2Proof.Machine
end

section

/-! # What an operation and a step can do (spec/10_state.md section 4, spec/20_memory.md, spec/60_exceptions.md)

`exec_effect` says of every operation what it can do to the output, to `ended` and to the stores. `step_forms` reduces a
step to an operation or an input event. The statements about all operations and all steps are read off these two. -/

namespace Sys2Proof.Machine

/-! ### Effects -/

/-- `t` is `s` after an operation that leaves `ended`, the events to come and the port as they are, keeps the stores canonical,
and adds `events` to the output. -/
structure Extends (events : List OutputEvent) (s t : State) : Prop where
  output  : t.output = s.output ++ events
  ended   : t.ended = s.ended
  inputs  : t.inputs = s.inputs
  request : t.request = s.request
  stores  : Memory.wf s = true → Memory.wf t = true

/-- What an operation can do: go on in silence, send an echo, end the session with a close frame, end it without. -/
inductive Effect (s t : State) : Prop
  | quiet (h : Extends [] s t)
  | echo (m : List Byte) (h : Extends [.write (encodeFrame 0x2 m)] s t)
  | close (code : Word) (reason : List Byte) (h : t = closedWith code reason s)
  | silent (h : t = endedSilently s)

theorem Extends.of_eq {s t : State} (ho : t.output = s.output) (he : t.ended = s.ended) (hi : t.inputs = s.inputs)
    (hr : t.request = s.request) (hm : Memory.wf s = true → Memory.wf t = true) : Extends [] s t :=
  ⟨by rw [ho, List.append_nil], he, hi, hr, hm⟩

theorem Extends.trans {events : List OutputEvent} {s t u : State} (h : Extends [] s t) (h' : Extends events t u) :
    Extends events s u :=
  ⟨by rw [h'.output, h.output, List.append_nil], h'.ended.trans h.ended, h'.inputs.trans h.inputs,
    h'.request.trans h.request, h'.stores ∘ h.stores⟩

theorem Effect.refl (s : State) : Effect s s := .quiet (.of_eq rfl rfl rfl rfl id)

/-- Taking bytes off the queue first makes no difference. -/
theorem Effect.of_consumed {n : Nat} {s t : State} (hn : n ≤ s.bufferedLength) (hl : n ≤ s.pendingChunks.length)
    (h : Effect (consumed n s) t) : Effect s t := by
  have hm : Memory.wf s = true → Memory.wf (consumed n s) = true := fun hwf =>
    consume_keeps_wf hwf (consume_eq_some.2 ⟨hn, hl, rfl, rfl⟩)
  cases h with
  | quiet h => exact .quiet ⟨h.output, h.ended, h.inputs, h.request, h.stores ∘ hm⟩
  | echo m h => exact .echo m ⟨h.output, h.ended, h.inputs, h.request, h.stores ∘ hm⟩
  | close code reason h => exact .close code reason h
  | silent h => exact .silent h

theorem Effect.of_closeAnswer (first : Option (List Byte)) (s : State) : Effect s (closeAnswer first s) := by
  rcases closeAnswer_cases first s with ⟨code, reason, h⟩ | h
  · exact .close code reason h
  · exact .silent h

theorem Effect.of_whenLive {s t u : State} (hu : Effect s u) (h : whenLive s (.next u) = .next t) : Effect s t := by
  obtain ⟨-, rfl⟩ | ⟨-, h⟩ := whenLive_cases h
  · exact .refl _
  · cases h
    exact hu

/-! ### The effect of each kind of operation -/

theorem messageEchoed_extends (m : List Byte) (s : State) :
    Extends [.write (encodeFrame 0x2 m)] s (messageEchoed m s) :=
  ⟨rfl, rfl, rfl, rfl, fun hwf => memory_wf_of_no_fragments ((memory_wf_iff s).1 hwf).1 rfl⟩

theorem storePayload_extends (u : List Byte) (s : State) : Extends [] s (storePayload u s) := by
  refine .of_eq ?_ ?_ ?_ ?_ (storePayload_keeps_wf u) <;> rw [storePayload_eq]

theorem resolveLength_effect (len : Length) (s : State) : Effect s (resolveLength len s) := by
  obtain ⟨-, h⟩ | ⟨-, h⟩ := resolveLength_cases len s
  · exact .close 1009 config.reasonTooBig (h.trans (raiseTooBig_eq _))
  · rw [h]
    exact .quiet (.of_eq rfl rfl rfl rfl fun hwf => memory_wf_congr hwf rfl rfl rfl)

/-- With as many bytes as the action waits for. -/
theorem actionNext_effect (st : DecoderState) {b : List Byte} {s : State} (hb : b.length = needed st s) :
    Effect s (actionNext st b s) := by
  cases st with
  | awaitHeader =>
    obtain ⟨code, reason, h⟩ | ⟨-, h⟩ := actionNext_awaitHeader_cases b s
    · exact .close code reason h
    · rw [h]
      exact .quiet (.of_eq rfl rfl rfl rfl fun hwf => memory_wf_congr hwf rfl rfl rfl)
  | awaitLength => exact resolveLength_effect _ s
  | awaitMaskKey => exact .quiet (.of_eq rfl rfl rfl rfl fun hwf => memory_wf_congr hwf rfl rfl rfl)
  | awaitPayload =>
    have hstore := (storePayload_extends (unmask b s.maskKey) s).stores
    rw [storePayload_eq] at hstore
    simp only [unmask_eq_nil] at hstore
    obtain ⟨-, h⟩ | ⟨-, -, h⟩ | ⟨-, -, -, h⟩ | ⟨-, hlen, -, h⟩ := actionNext_awaitPayload_cases b s
    · rw [h]
      exact .quiet (.of_eq rfl rfl rfl rfl fun hwf => memory_wf_congr (hstore hwf) rfl rfl rfl)
    · exact .close 1008 config.reasonEmpty h
    · rw [h]
      exact .echo _ (messageEchoed_extends _ s)
    · have hne : b ≠ [] := by
        rintro rfl
        exact hlen (BitVec.eq_of_toNat_eq hb.symm)
      rw [if_neg hne] at hstore
      rw [h]
      exact .quiet (.of_eq rfl rfl rfl rfl fun hwf => memory_wf_congr (hstore hwf) rfl rfl rfl)
  | closePending => exact .of_closeAnswer _ s

theorem action_effect (st : DecoderState) {s t : State} (h : exec (actionOf st) s = .next t) : Effect s t := by
  obtain ⟨-, rfl⟩ | ⟨-, -, rfl⟩ | ⟨-, hcount, hheld, rfl⟩ := exec_actionOf_cases h
  · exact .refl _
  · exact .quiet (.of_eq rfl rfl rfl rfl fun hwf => memory_wf_congr hwf rfl rfl rfl)
  · have hneed : needed st (consumed (needed st s) s) = needed st s := by cases st <;> rfl
    exact .of_consumed hcount hheld (actionNext_effect st ((List.length_take_of_le hheld).trans hneed.symm))

theorem dataFrame_effect (op : BitVec 4) (f : RxFrame) (s : State) : Effect s (dataFrame op f s) := by
  rcases Nat.lt_or_ge 1048576 (s.totalPayloadLength.toNat + f.len.toNat) with hcap | hcap
  · exact .close 1009 config.reasonTooBig (receiveFrame_tooBig _ hcap)
  by_cases hlen : f.len.toNat = 0
  · exact .close 1008 config.reasonEmpty (dataFrame_empty hcap hlen)
  have hwritten : Extends [] s (headerAndKeyWritten op f s) :=
    .of_eq rfl rfl rfl rfl fun hwf => memory_wf_congr hwf rfl rfl rfl
  have hstored := hwritten.trans (storePayload_extends (unmask f.wire f.key) _)
  rw [dataFrame, receiveFrame_of_le _ _ _ _ hcap, if_neg (mt lengthValue_eq_zero.1 hlen)]
  dsimp only
  split_ifs
  · exact .echo _ (hstored.trans (messageEchoed_extends _ _))
  · exact .quiet (hstored.trans (.of_eq rfl rfl rfl rfl fun hwf => memory_wf_congr hwf rfl rfl rfl))

theorem closeFrame_effect (f : RxFrame) (s : State) : Effect s (closeFrame f s) := by
  rcases Nat.lt_or_ge 1048576 (s.totalPayloadLength.toNat + f.len.toNat) with hcap | hcap
  · exact .close 1009 config.reasonTooBig (receiveFrame_tooBig _ hcap)
  · rw [closeFrame_of_le hcap]
    exact .of_closeAnswer _ s

theorem exec_effect {i : Instr} {s t : State} (h : exec i s = .next t) : Effect s t := by
  have hquiet : ∀ field, Effect s (formLength field s) := fun field =>
    .quiet (.of_eq rfl rfl rfl rfl fun hwf => memory_wf_congr hwf rfl rfl rfl)
  cases i with
  | rxOp0 f | rxText f | rxBinary f | rxOp3 f | rxOp4 f | rxOp5 f | rxOp6 f | rxOp7 f | rxOpB f | rxOpC f | rxOpD f
  | rxOpE f | rxOpF f => exact .of_whenLive (dataFrame_effect _ f s) h
  | rxClose f => exact .of_whenLive (closeFrame_effect f s) h
  | rxPing hd | rxPong hd => exact .of_whenLive (.close 1003 config.reasonPingPong (raisePingPong_eq _)) h
  | rxUnmasked hd => exact .of_whenLive (.close config.codeUnmasked config.reasonUnmasked (raiseUnmasked_eq _)) h
  | lenLen7 v | lenLen16 v | lenLen64 v => exact .of_whenLive (resolveLength_effect _ s) h
  | txlenLen7 n | txlenLen16 n | txlenLen64 n => exact .of_whenLive (hquiet _) h
  | txEcho m =>
    exact .of_whenLive (u := sendEcho m s)
      (.echo m ⟨rfl, rfl, rfl, rfl, fun hwf => writeFrame_keeps_wf 0x2 m hwf⟩) h
  | txClose code reason => exact .of_whenLive (.close code reason (raiseClose_eq_closedWith code reason s)) h
  | fsmAwaitHeader => exact action_effect .awaitHeader h
  | fsmAwaitLength => exact action_effect .awaitLength h
  | fsmAwaitMaskKey => exact action_effect .awaitMaskKey h
  | fsmAwaitPayload => exact action_effect .awaitPayload h
  | fsmClosePending => exact action_effect .closePending h
  | fsmComplete => exact .of_whenLive (.echo _ (messageEchoed_extends _ s)) h

/-- R32: every operation asks for `ended` first. -/
theorem exec_ended (i : Instr) {s : State} (hs : s.ended = true) : exec i s = .next s := by
  cases i <;> exact whenLive_ended _ hs

/-! ### Steps -/

/-- Outside a transaction of a live session, with nothing at the port, a step is the loop's return or an input event. -/
theorem step_of_idle {s : State} (hr : s.request = none) (h : s.inTransaction = false ∨ s.ended = true) :
    step s = .next (idle s) := by
  have hnot : ¬ (s.inTransaction = true ∧ s.ended = false) := by
    rintro ⟨ht, he⟩
    rcases h with h | h
    · exact Bool.false_ne_true (h.symm.trans ht)
    · exact Bool.false_ne_true (he.symm.trans h)
  simp [step, fetch, hr, hnot]

theorem step_of_event {e : InputEvent} {later : List InputEvent} {s : State} (hr : s.request = none)
    (ht : s.inTransaction = false) (hi : s.inputs = e :: later) :
    step s = .next (takeEvent e { s with inputs := later }) := by
  rw [step_of_idle hr (.inl ht), idle, ht, if_neg Bool.false_ne_true, hi]

theorem takeEvent_inputs (e : InputEvent) (s : State) : (takeEvent e s).inputs = s.inputs := by
  cases e with
  | bytesReceived chunk =>
    rw [takeEvent, bytesReceived]
    split <;> rfl
  | streamClosed =>
    rw [takeEvent, streamClosed]
    split <;> rfl

/-- Everything a step can do: an operation, which finds the port empty; the loop's return; nothing; one input event. -/
theorem step_forms {s t : State} (h : step s = .next t) :
    (∃ i, exec i { s with request := none } = .next t) ∨ t = { s with inTransaction := false } ∨ t = s ∨
    ∃ e later, t = takeEvent e { s with inputs := later } := by
  rcases Option.eq_none_or_eq_some s.request with hr | ⟨r, hr⟩
  · have hs : { s with request := none } = s := by rw [← hr]
    obtain ⟨-, -, h⟩ | ⟨-, -, h⟩ | ⟨-, -, h⟩ | ⟨e, later, -, -, h⟩ := step_cases hr h
    · exact .inl ⟨_, hs.symm ▸ h⟩
    · exact .inr (.inl h)
    · exact .inr (.inr (.inl h))
    · exact .inr (.inr (.inr ⟨e, later, h⟩))
  · obtain ⟨i, -, -, h⟩ := step_of_request hr h
    exact .inl ⟨i, h⟩

/-- Settles O14: `step_of_event` on the arrival of a chunk. -/
theorem chunkIsAppendedWhole : Obligations.ChunkIsAppendedWhole := by
  intro chunk later s hr ht hs hi
  rw [step_of_event hr ht hi, takeEvent, bytesReceived, if_neg (by simp [hs])]
  rfl

/-- Settles O15: `step_of_event` on the closing of the stream. -/
theorem streamClosedEndsSilently : Obligations.StreamClosedEndsSilently := by
  intro later s hr ht hs hi
  rw [step_of_event hr ht hi, takeEvent, streamClosed, if_neg (by simp [hs])]
  simp [endedWith, fullReset, perMessageReset, clearFragments, clearInput, setEnded, zeroKey]

/-- Settles O42: the operations by `exec_ended`, the step by the branches of `idle`. -/
theorem endedInstanceIsInert : Obligations.EndedInstanceIsInert := by
  refine fun s hs => ⟨fun i => exec_ended i hs, fun hr => ⟨idle s, step_of_idle hr (.inr hs), ?_⟩⟩
  unfold idle
  split
  · next ht => exact ⟨rfl, fun h => absurd (h.symm.trans ht) Bool.false_ne_true⟩
  · split
    · next hi => exact ⟨rfl, fun _ => by rw [hi]; rfl⟩
    · next e later hi =>
      rw [takeEvent_ended e (s := { s with inputs := later }) hs]
      exact ⟨rfl, fun _ => by rw [hi]; rfl⟩

/-- Settles O44: in a transaction by `step_of_live`, at the port by the decoder's round trip. -/
theorem stepRunsTheFetchedOperation : Obligations.StepRunsTheFetchedOperation := by
  refine ⟨fun s hr ht hs => ?_, fun i rest s hwf hr => ?_⟩
  · rw [step_of_live hr ht hs]
    refine ⟨?_, ?_, ?_, ?_, ?_⟩ <;> intro hst <;> rw [hst] <;> rfl
  · simp [step, fetch, hr, decode_encode hwf]

/-! ### Output, `ended` and stores -/

theorem Effect.output_ended {s t : State} (h : Effect s t) :
    (∃ events, t.output = s.output ++ events) ∧ t.inputs = s.inputs ∧ t.request = s.request ∧
      (s.ended = true → t.ended = true) := by
  cases h with
  | quiet h | echo m h => exact ⟨⟨_, h.output⟩, h.inputs, h.request, fun hs => h.ended.trans hs⟩
  | close code reason h | silent h => subst h; exact ⟨⟨_, rfl⟩, rfl, rfl, fun _ => rfl⟩

theorem Effect.keeps_wf {s t : State} (h : Effect s t) (hwf : Memory.wf s = true) : Memory.wf t = true := by
  cases h with
  | quiet h | echo m h => exact h.stores hwf
  | close code reason h | silent h => subst h; exact memory_wf_of_no_fragments rfl rfl

/-- Settles O43: read off `exec_effect` and `step_forms`. -/
theorem outputOnlyGrowsAndEndedStays : Obligations.OutputOnlyGrowsAndEndedStays := by
  refine ⟨fun i s t h => (exec_effect h).output_ended, fun s t h => ?_⟩
  obtain ⟨i, h⟩ | rfl | rfl | ⟨e, later, rfl⟩ := step_forms h
  · obtain ⟨hout, -, -, hended⟩ := (exec_effect h).output_ended
    exact ⟨hout, hended⟩
  · exact ⟨⟨[], (List.append_nil _).symm⟩, id⟩
  · exact ⟨⟨[], (List.append_nil _).symm⟩, id⟩
  · refine ⟨⟨[], ?_⟩, fun hs => ?_⟩
    · rw [takeEvent_output, List.append_nil]
    · rw [takeEvent_ended e (s := { s with inputs := later }) hs]
      exact hs

/-- Settles O48: read off `exec_effect` and `step_forms`. -/
theorem storesStayCanonical : Obligations.StoresStayCanonical := by
  refine ⟨fun i s t hwf h => (exec_effect h).keeps_wf hwf, fun s t hwf h => ?_⟩
  obtain ⟨i, h⟩ | rfl | rfl | ⟨e, later, rfl⟩ := step_forms h
  · exact (exec_effect h).keeps_wf (memory_wf_congr hwf rfl rfl rfl)
  · exact memory_wf_congr hwf rfl rfl rfl
  · exact hwf
  · exact takeEvent_keeps_wf e (memory_wf_congr hwf rfl rfl rfl)

theorem action_total (st : DecoderState) {s : State} (hn : s.bufferedLength = s.pendingChunks.length) :
    ∃ t, exec (actionOf st) s = .next t := by
  rw [exec_actionOf]
  exact whenLive_total (awaitBytes_total hn fun _ _ => ⟨_, rfl⟩)

/-- Only the actions wait for bytes, and their guard asks the count. -/
theorem exec_total (i : Instr) {s : State} (hn : s.bufferedLength = s.pendingChunks.length) : ∃ t, exec i s = .next t := by
  cases i with
  | fsmAwaitHeader => exact action_total .awaitHeader hn
  | fsmAwaitLength => exact action_total .awaitLength hn
  | fsmAwaitMaskKey => exact action_total .awaitMaskKey hn
  | fsmAwaitPayload => exact action_total .awaitPayload hn
  | _ => exact whenLive_total ⟨_, rfl⟩

/-- Settles O49: `exec_total`; without a request a step is an action or `idle`. -/
theorem noUnderrunAndNoRefusal : Obligations.NoUnderrunAndNoRefusal := by
  refine ⟨fun i s hwf => exec_total i ((memory_wf_iff s).1 hwf).1, fun s hwf hr => ?_⟩
  rcases Bool.eq_false_or_eq_true s.inTransaction with ht | ht
  · rcases Bool.eq_false_or_eq_true s.ended with he | he
    · exact ⟨idle s, step_of_idle hr (.inr he)⟩
    · rw [step_of_live hr ht he]
      exact exec_total _ ((memory_wf_iff s).1 hwf).1
  · exact ⟨idle s, step_of_idle hr (.inl ht)⟩

/-! ### The output trace (R300) -/

theorem sessionTrace_write (v : List Byte) (rest : List OutputEvent) :
    sessionTrace (.write v :: rest) =
      if isEcho (.write v) = true then sessionTrace rest else isCloseFrame (.write v) && rest == [.endConnection] := rfl

/-- Echo replies in front do not change what may follow. -/
theorem sessionTrace_append {echoes : List OutputEvent} (h : echoes.all isEcho = true) (tail : List OutputEvent) :
    sessionTrace (echoes ++ tail) = sessionTrace tail := by
  induction echoes with
  | nil => rfl
  | cons e rest ih =>
    obtain ⟨he, hrest⟩ : isEcho e = true ∧ rest.all isEcho = true := by simpa using h
    cases e with
    | endConnection => cases he
    | write v => rw [List.cons_append, sessionTrace_write, if_pos he, ih hrest]

theorem sessionTrace_forms {l : List OutputEvent} (h : sessionTrace l = true) :
    ∃ echoes tail, l = echoes ++ tail ∧ echoes.all isEcho = true ∧
      (tail = [] ∨ tail = [.endConnection] ∨ ∃ v, tail = [.write v, .endConnection]) := by
  induction l with
  | nil => exact ⟨[], [], rfl, rfl, .inl rfl⟩
  | cons e rest ih =>
    cases e with
    | endConnection => exact ⟨[], _, rfl, rfl, .inr (.inl (by simpa [sessionTrace] using h))⟩
    | write v =>
      rw [sessionTrace_write] at h
      split_ifs at h with he
      · obtain ⟨echoes, tail, rfl, hall, htail⟩ := ih h
        exact ⟨.write v :: echoes, tail, rfl, by simp [he, hall], htail⟩
      · obtain ⟨-, rfl⟩ : isCloseFrame (.write v) = true ∧ rest = [.endConnection] := by simpa using h
        exact ⟨[], _, rfl, rfl, .inr (.inr ⟨v, rfl⟩)⟩

theorem endConnection_not_mem {l : List OutputEvent} (h : l.all isEcho = true) : .endConnection ∉ l := fun hmem =>
  Bool.false_ne_true (List.all_eq_true.1 h _ hmem)

/-- `end()` is the last event of a trace and occurs once. -/
theorem sessionTrace_end {l : List OutputEvent} (h : sessionTrace l = true) (hmem : .endConnection ∈ l) :
    l.getLast? = some .endConnection ∧ l.count .endConnection = 1 := by
  obtain ⟨echoes, tail, rfl, hall, rfl | rfl | ⟨v, rfl⟩⟩ := sessionTrace_forms h
  · rw [List.append_nil] at hmem
    exact absurd hmem (endConnection_not_mem hall)
  · simp [List.count_eq_zero.2 (endConnection_not_mem hall)]
  · simp [List.count_eq_zero.2 (endConnection_not_mem hall)]

theorem TraceInv.of_echoes {s : State} (h : s.output.all isEcho = true) : TraceInv s :=
  ⟨by rw [← List.append_nil s.output, sessionTrace_append h]; rfl, fun _ => h⟩

theorem TraceInv.of_ended {s : State} (h : sessionTrace s.output = true) (hs : s.ended = true) : TraceInv s :=
  ⟨h, fun hlive => absurd (hlive.symm.trans hs) Bool.false_ne_true⟩

/-- The trace is a matter of the output and `ended`; setting `ended` does no harm. -/
theorem TraceInv.congr {s t : State} (h : TraceInv s) (ho : t.output = s.output) (he : s.ended = true → t.ended = true) :
    TraceInv t := by
  refine ⟨ho ▸ h.shape, fun hlive => ho ▸ h.live ?_⟩
  exact Bool.eq_false_iff.2 fun hs => Bool.false_ne_true (hlive.symm.trans (he hs))

theorem Effect.keeps_trace {s t : State} (h : Effect s t) (hs : s.ended = false) (hinv : TraceInv s) : TraceInv t := by
  have hlive := hinv.live hs
  cases h with
  | quiet h => exact .of_echoes (by rw [h.output, List.append_nil]; exact hlive)
  | echo m h => exact .of_echoes (by rw [h.output, List.all_append, hlive]; rfl)
  | close code reason h =>
    subst h
    exact .of_ended ((sessionTrace_append hlive _).trans rfl) rfl
  | silent h =>
    subst h
    exact .of_ended ((sessionTrace_append hlive _).trans rfl) rfl

theorem step_keeps_trace {s t : State} (hinv : TraceInv s) (h : step s = .next t) : TraceInv t := by
  obtain ⟨i, h⟩ | rfl | rfl | ⟨e, later, rfl⟩ := step_forms h
  · have hinv' : TraceInv { s with request := none } := hinv.congr rfl id
    rcases Bool.eq_false_or_eq_true s.ended with hs | hs
    · rw [exec_ended i (s := { s with request := none }) hs] at h
      cases h
      exact hinv'
    · exact (exec_effect h).keeps_trace hs hinv'
  · exact hinv.congr rfl id
  · exact hinv
  · refine hinv.congr (takeEvent_output e _) fun hs => ?_
    rw [takeEvent_ended e (s := { s with inputs := later }) hs]
    exact hs

/-- Settles O47: a live session has written echoes alone, and each effect adds what the trace allows; that `end()` is last and
single is `sessionTrace_end`. -/
theorem stepKeepsSessionTrace : Obligations.StepKeepsSessionTrace := by
  refine ⟨fun s t => step_keeps_trace, fun s t hinv h hmem => ?_⟩
  have ht := step_keeps_trace hinv h
  have hended : t.ended = true := Bool.eq_true_of_not_eq_false fun hlive => endConnection_not_mem (ht.live hlive) hmem
  exact ⟨hended, sessionTrace_end ht.shape hmem⟩

end Sys2Proof.Machine
end

section

/-! # The invariants of a session (spec/10_state.md sections 8, 9) -/

namespace Sys2Proof.Machine

/-! ### States that meet the invariants -/

theorem SessionInv.of_endedWith (events : List OutputEvent) (field : List Byte) {s : State} (hr : s.request = none) :
    SessionInv (endedWith events field s) :=
  ⟨hr, nofun, fun _ => ⟨rfl, rfl, rfl, rfl, rfl, rfl, rfl, rfl, rfl, rfl, rfl, rfl, rfl⟩⟩

theorem SessionInv.of_live {s : State} (hr : s.request = none) (hs : s.ended = false) (h : LiveInv s) : SessionInv s :=
  ⟨hr, fun _ => h, fun he => absurd (hs.symm.trans he) Bool.false_ne_true⟩

/-- A transaction runs in a live session only. -/
theorem SessionInv.live_of_running {s : State} (h : SessionInv s) (ht : s.inTransaction = true) : s.ended = false :=
  Bool.eq_false_iff.2 fun he => Bool.false_ne_true ((h.ended he).stopped.symm.trans ht)

theorem SessionInv.count {s : State} (h : SessionInv s) : s.bufferedLength = s.pendingChunks.length := by
  rcases Bool.eq_false_or_eq_true s.ended with he | he
  · rw [(h.ended he).buffered, (h.ended he).pending]
    rfl
  · exact ((memory_wf_iff s).1 (h.live he).stores).1

/-- The invariants speak of the queue through its count alone, and of neither the events to come nor the loop. -/
theorem LiveInv.with_queue {s : State} (h : LiveInv s) {q : List Byte} {n : Nat} (hn : n = q.length)
    (later : List InputEvent) (running : Bool) :
    LiveInv { s with pendingChunks := q, bufferedLength := n, inputs := later, inTransaction := running } :=
  { h with stores := (memory_wf_iff _).2 ⟨hn, ((memory_wf_iff s).1 h.stores).2⟩ }

theorem LiveInv.consumed {n : Nat} {s : State} (h : LiveInv s) : LiveInv (consumed n s) :=
  h.with_queue (by rw [List.length_drop, ((memory_wf_iff s).1 h.stores).1]) s.inputs s.inTransaction

/-- INV5 and INV6: what is stored never passes the running total. -/
theorem LiveInv.stored_le {s : State} (h : LiveInv s) : bytesStored s ≤ s.totalPayloadLength.toNat := by
  cases hst : s.state with
  | awaitHeader => exact (h.stored_eq (.inl hst)).le
  | awaitLength => exact (h.stored_eq (.inr (.inl hst))).le
  | closePending => exact (h.stored_eq (.inr (.inr hst))).le
  | awaitMaskKey => exact (Nat.le_add_right _ _).trans (h.stored_add (.inl hst)).le
  | awaitPayload => exact (Nat.le_add_right _ _).trans (h.stored_add (.inr hst)).le

theorem LiveInv.stored_le_cap {s : State} (h : LiveInv s) : bytesStored s ≤ 1048576 := h.stored_le.trans h.total_le

/-- R31. -/
theorem LiveInv.frames_le_cap {s : State} (h : LiveInv s) : s.framesReceived.toNat ≤ 1048577 := by
  have hframes := h.frames_le
  have hstored := h.stored_le_cap
  split_ifs at hframes <;> omega

theorem LiveInv.frames_le_stored {s : State} (h : LiveInv s) (hst : s.state ≠ .closePending) :
    s.framesReceived.toNat ≤ bytesStored s := by
  have hframes := h.frames_le
  rwa [if_neg hst] at hframes

/-! ### Counting -/

/-- Below the bound of R31 a frame more is one more. -/
theorem framesReceived_add_one {n : BitVec 32} (h : n.toNat ≤ 1048577) : (n + 1).toNat = n.toNat + 1 := by
  rw [BitVec.toNat_add]
  exact Nat.mod_eq_of_lt (by simp; omega)

/-- The bytes held after a payload has been stored, unless it is empty. -/
theorem sum_stored (fragments : List (List Byte)) (b : List Byte) (key : MaskKey) :
    (List.map List.length (if b = [] then fragments else fragments ++ [unmask b key])).sum
      = (fragments.map List.length).sum + b.length := by
  split_ifs with hb
  · simp [hb]
  · simp

/-! ### The actions keep the invariants -/

section

variable {b : List Byte} {s : State}

theorem headerTaken_keeps_inv (h : LiveInv s) (hst : s.state = .awaitHeader) (fin : Bool) {op : BitVec 4}
    (psi : BitVec 7) (hop : isPingPong op = false) :
    LiveInv { s with state := .awaitLength, fin := fin, opcode := op, masked := true, payloadSizeIndicator := psi } where
  total_le := h.total_le
  masked _ := rfl
  stores := memory_wf_congr h.stores rfl rfl rfl
  stored_eq _ := h.stored_eq (.inl hst)
  stored_add := by simp
  frame_le := by simp
  not_ping_pong _ := by simpa [isPingPong] using hop
  close_opcode := nofun
  fresh := nofun
  frames_le := h.frames_le_stored (by simp [hst])

theorem lengthTaken_keeps_inv (h : LiveInv s) (hst : s.state = .awaitLength) {len : Length}
    (hcap : s.totalPayloadLength.toNat + len.toNat ≤ 1048576) :
    LiveInv { s with
      state := .awaitMaskKey, framePayloadLength := len, totalPayloadLength := s.totalPayloadLength + len } where
  total_le := (add_toNat_of_le hcap).trans_le hcap
  masked _ := h.masked (by simp [hst])
  stores := memory_wf_congr h.stores rfl rfl rfl
  stored_eq := by simp
  stored_add _ := by
    have hstored := h.stored_eq (.inr (.inl hst))
    exact (congrArg (· + len.toNat) hstored).trans (add_toNat_of_le hcap).symm
  frame_le _ := (Nat.le_add_left _ _).trans hcap
  not_ping_pong _ := h.not_ping_pong (by simp [hst])
  close_opcode := nofun
  fresh := nofun
  frames_le := h.frames_le_stored (by simp [hst])

theorem keyTaken_keeps_inv (h : LiveInv s) (hst : s.state = .awaitMaskKey) (key : MaskKey) :
    LiveInv { s with state := .awaitPayload, maskKey := key } where
  total_le := h.total_le
  masked _ := h.masked (by simp [hst])
  stores := memory_wf_congr h.stores rfl rfl rfl
  stored_eq := by simp
  stored_add _ := h.stored_add (.inl hst)
  frame_le _ := h.frame_le (.inl hst)
  not_ping_pong _ := h.not_ping_pong (by simp [hst])
  close_opcode := nofun
  fresh := nofun
  frames_le := h.frames_le_stored (by simp [hst])

theorem closeStored_keeps_inv (h : LiveInv s) (hst : s.state = .awaitPayload)
    (hb : b.length = s.framePayloadLength.toNat) (hop : s.opcode = 0x8) :
    LiveInv { s with
      state := .closePending
      fragments := if b = [] then s.fragments else s.fragments ++ [unmask b s.maskKey]
      framesReceived := s.framesReceived + 1 } where
  total_le := h.total_le
  masked _ := h.masked (by simp [hst])
  stores := by
    have hstore := storePayload_keeps_wf (unmask b s.maskKey) h.stores
    rw [storePayload_eq] at hstore
    simp only [unmask_eq_nil] at hstore
    exact memory_wf_congr hstore rfl rfl rfl
  stored_eq _ := by
    have hstored := h.stored_add (.inr hst)
    rw [← hb] at hstored
    exact (sum_stored s.fragments b s.maskKey).trans hstored
  stored_add := by simp
  frame_le := by simp
  not_ping_pong _ := h.not_ping_pong (by simp [hst])
  close_opcode _ := hop
  fresh := nofun
  frames_le := by
    have hframes := h.frames_le_stored (by simp [hst])
    have hcount := framesReceived_add_one h.frames_le_cap
    have hsum := sum_stored s.fragments b s.maskKey
    unfold bytesStored at hframes ⊢
    rw [if_pos rfl]
    dsimp only
    omega

theorem dataStored_keeps_inv (h : LiveInv s) (hst : s.state = .awaitPayload)
    (hb : b.length = s.framePayloadLength.toNat) (hne : b ≠ []) :
    LiveInv { s with
      state := .awaitHeader
      fragments := s.fragments ++ [unmask b s.maskKey]
      framesReceived := s.framesReceived + 1 } := by
  have hpos := List.length_pos_iff.2 hne
  have hadd := h.stored_add (.inr hst)
  have hsum := sum_stored s.fragments b s.maskKey
  rw [if_neg hne] at hsum
  constructor
  case total_le => exact h.total_le
  case masked => simp
  case stores =>
    exact memory_wf_congr (appendFragment_keeps_wf (mt unmask_eq_nil.1 hne) h.stores) rfl rfl rfl
  case stored_eq =>
    intro _
    rw [← hb] at hadd
    exact hsum.trans hadd
  case stored_add => simp
  case frame_le => simp
  case not_ping_pong => simp
  case close_opcode => simp
  case fresh =>
    intro _ hzero
    have hzero : s.totalPayloadLength.toNat = 0 := congrArg BitVec.toNat hzero
    omega
  case frames_le =>
    have hframes := h.frames_le_stored (by simp [hst])
    have hcount := framesReceived_add_one h.frames_le_cap
    unfold bytesStored at hframes ⊢
    rw [if_neg (by simp)]
    dsimp only
    omega

theorem messageEchoed_inv (h : LiveInv s) (m : List Byte) : LiveInv (messageEchoed m s) where
  total_le := Nat.zero_le _
  masked h := absurd rfl h
  stores := memory_wf_of_no_fragments ((memory_wf_iff s).1 h.stores).1 rfl
  stored_eq _ := rfl
  stored_add := by simp [messageEchoed]
  frame_le := by simp [messageEchoed]
  not_ping_pong h := absurd rfl h
  close_opcode := nofun
  fresh _ _ := ⟨rfl, rfl⟩
  frames_le := Nat.zero_le _

/-- With as many bytes as the action waits for. -/
theorem actionNext_keeps_inv (h : LiveInv s) (hr : s.request = none) (hs : s.ended = false)
    (hb : b.length = needed s.state s) : SessionInv (actionNext s.state b s) := by
  have hclosed : ∀ code reason, SessionInv (closedWith code reason s) := fun _ _ => .of_endedWith _ _ hr
  cases hst : s.state with
  | awaitHeader =>
    obtain ⟨code, reason, hnext⟩ | ⟨hop, hnext⟩ := actionNext_awaitHeader_cases b s <;> rw [hnext]
    · exact hclosed code reason
    · exact .of_live hr hs (headerTaken_keeps_inv h hst _ _ hop)
  | awaitLength =>
    obtain ⟨-, hnext⟩ | ⟨hcap, hnext⟩ := actionNext_awaitLength_cases b s <;> rw [hnext]
    · exact hclosed 1009 config.reasonTooBig
    · exact .of_live hr hs (lengthTaken_keeps_inv h hst hcap)
  | awaitMaskKey => exact .of_live hr hs (keyTaken_keeps_inv h hst (keyOfBytes b))
  | awaitPayload =>
    rw [hst] at hb
    obtain ⟨hop, hnext⟩ | ⟨-, -, hnext⟩ | ⟨-, -, -, hnext⟩ | ⟨-, hlen, -, hnext⟩ := actionNext_awaitPayload_cases b s <;>
      rw [hnext]
    · exact .of_live hr hs (closeStored_keeps_inv h hst hb hop)
    · exact hclosed 1008 config.reasonEmpty
    · exact .of_live hr hs (messageEchoed_inv h _)
    · have hne : b ≠ [] := by
        rintro rfl
        exact hlen (BitVec.eq_of_toNat_eq hb.symm)
      exact .of_live hr hs (dataStored_keeps_inv h hst hb hne)
  | closePending =>
    obtain ⟨code, reason, hnext⟩ | hnext := actionNext_closePending_cases b s <;> rw [hnext]
    · exact hclosed code reason
    · exact .of_endedWith _ _ hr

end

/-! ### Steps keep the invariants -/

theorem SessionInv.with_inputs {s : State} (h : SessionInv s) (later : List InputEvent) :
    SessionInv { s with inputs := later } :=
  ⟨h.noRequest, fun hs => (h.live hs).with_queue h.count later s.inTransaction, fun he => { h.ended he with }⟩

theorem takeEvent_keeps_inv (e : InputEvent) {s : State} (h : SessionInv s) : SessionInv (takeEvent e s) := by
  rcases Bool.eq_false_or_eq_true s.ended with he | he
  · rwa [takeEvent_ended e he]
  cases e with
  | bytesReceived chunk =>
    have hcount : s.bufferedLength + chunk.length = (s.pendingChunks ++ chunk).length := by
      rw [List.length_append, h.count]
    rw [takeEvent, bytesReceived, if_neg (by simp [he])]
    exact .of_live h.noRequest he ((h.live he).with_queue hcount s.inputs true)
  | streamClosed =>
    rw [takeEvent, streamClosed, if_neg (by simp [he])]
    exact ⟨h.noRequest, nofun, fun _ => ⟨rfl, rfl, rfl, rfl, rfl, rfl, rfl, rfl, rfl, rfl, rfl, rfl, rfl⟩⟩

theorem action_keeps_inv {s t : State} (h : SessionInv s) (hs : s.ended = false)
    (ht : exec (actionOf s.state) s = .next t) : SessionInv t := by
  have hlive := h.live hs
  obtain ⟨-, rfl⟩ | ⟨-, -, rfl⟩ | ⟨-, -, hheld, rfl⟩ := exec_actionOf_cases ht
  · exact h
  · exact .of_live h.noRequest hs (hlive.with_queue h.count s.inputs false)
  · have hneed : needed s.state (consumed (needed s.state s) s) = needed s.state s := by
      generalize s.state = st
      cases st <;> rfl
    exact actionNext_keeps_inv (s := consumed (needed s.state s) s) hlive.consumed h.noRequest hs
      ((List.length_take_of_le hheld).trans hneed.symm)

theorem step_keeps_inv {s t : State} (h : SessionInv s) (hstep : step s = .next t) : SessionInv t := by
  obtain ⟨-, hs, hact⟩ | ⟨ht, he, -⟩ | ⟨-, -, rfl⟩ | ⟨e, later, ht, -, rfl⟩ := step_cases h.noRequest hstep
  · exact action_keeps_inv h hs hact
  · exact absurd (h.live_of_running ht) (by simp [he])
  · exact h
  · exact takeEvent_keeps_inv e (h.with_inputs later)

/-- Settles O46: a lemma for each branch of `actionNext`, `takeEvent_keeps_inv` for the events. -/
theorem stepKeepsInvariants : Obligations.StepKeepsInvariants := fun _ _ => step_keeps_inv

/-- Settles O45: each invariant of the reset state computes. -/
theorem resetMeetsInvariants : Obligations.ResetMeetsInvariants := by
  refine ⟨.of_live rfl rfl ?_, .of_echoes rfl⟩
  constructor <;> simp [State.reset, Memory.wf, bytesStored]

theorem SessionInv.frames_le_cap {s : State} (h : SessionInv s) : s.framesReceived.toNat ≤ 1048577 := by
  rcases Bool.eq_false_or_eq_true s.ended with he | he
  · rw [(h.ended he).frames]
    exact Nat.zero_le _
  · exact (h.live he).frames_le_cap

/-- Settles O50: the bound is INV5's, in both states. -/
theorem framesReceivedNeverOverflows : Obligations.FramesReceivedNeverOverflows := by
  refine fun s t h hstep => ⟨h.frames_le_cap, (step_keeps_inv h hstep).frames_le_cap, fun hnext => ?_⟩
  rw [hnext, framesReceived_add_one h.frames_le_cap]

end Sys2Proof.Machine
end

section

/-! # Transactions (spec/40_decoder_states.md sections 1, 9, spec/20_memory.md section 2)

A transaction is a finite run of actions up to the suspended or ended state. It ends because `effort` falls with every action, and
what it leads to does not depend on how the bytes were cut into chunks, because an action that has its bytes takes the same
ones with more bytes behind them. -/

namespace Sys2Proof.Machine

/-! ### Runs -/

/-- From `s` the dispatch loop runs `k` actions and then rests in `t`. -/
inductive Settles : Nat → State → State → Prop
  | rest {s : State} (h : s.inTransaction = false) : Settles 0 s s
  | act {k : Nat} {s t u : State} (h : s.inTransaction = true) (hstep : step s = .next t) (hrest : Settles k t u) :
      Settles (k + 1) s u

theorem runSteps_succ {s t : State} (h : step s = .next t) (k : Nat) : runSteps (k + 1) s = runSteps k t := by
  rw [runSteps, h]

theorem runSteps_add {j : Nat} {s t : State} (h : runSteps j s = .next t) (k : Nat) :
    runSteps (j + k) s = runSteps k t := by
  induction j generalizing s with
  | zero =>
    cases h
    rw [Nat.zero_add]
  | succ j ih =>
    rw [Nat.succ_add]
    cases hs : step s with
    | next u =>
      rw [runSteps_succ hs] at h ⊢
      exact ih h
    | fault r => rw [runSteps, hs] at h; cases h
    | refused r => rw [runSteps, hs] at h; cases h

theorem Settles.runSteps {k : Nat} {s t : State} (h : Settles k s t) : runSteps k s = .next t := by
  induction h with
  | rest h => rfl
  | act h hstep hrest ih => rw [runSteps_succ hstep, ih]

theorem Settles.at_rest {k : Nat} {s t : State} (h : Settles k s t) : t.inTransaction = false := by
  induction h with
  | rest h => exact h
  | act h hstep hrest ih => exact ih

theorem Settles.eq_of_rest {k : Nat} {s t : State} (h : Settles k s t) (hs : s.inTransaction = false) : t = s := by
  cases h with
  | rest h => rfl
  | act h hstep hrest => exact absurd (hs.symm.trans h) Bool.false_ne_true

theorem Settles.keeps_inv {k : Nat} {s t : State} (h : Settles k s t) (hinv : SessionInv s) : SessionInv t := by
  induction h with
  | rest h => exact hinv
  | act h hstep hrest ih => exact ih (step_keeps_inv hinv hstep)

/-- An action leaves the events to come alone (O43's `Effect.output_ended`). -/
theorem Settles.inputs {k : Nat} {s t : State} (h : Settles k s t) (hinv : SessionInv s) : t.inputs = s.inputs := by
  induction h with
  | rest h => rfl
  | act h hstep hrest ih =>
    rw [ih (step_keeps_inv hinv hstep)]
    rw [step_of_live hinv.noRequest h (hinv.live_of_running h)] at hstep
    exact (exec_effect hstep).output_ended.2.1

/-! ### A transaction ends -/

/-- A bound on the actions left from a value of `state` with no byte to take. -/
def actionsLeft : DecoderState → Nat
  | .awaitHeader  => 1
  | .awaitLength  => 2
  | .awaitMaskKey => 1
  | .awaitPayload => 2
  | .closePending => 1

/-- The measure of a transaction: a byte pays for two actions. -/
def effort (s : State) : Nat := 2 * s.bufferedLength + actionsLeft s.state

theorem effort_pos (s : State) : 0 < effort s := by
  unfold effort actionsLeft
  split <;> omega

theorem effort_le (s : State) : effort s ≤ 2 * s.bufferedLength + 4 := by
  unfold effort actionsLeft
  split <;> omega

/-- An action suspends or ends the session, or the effort falls. -/
theorem action_progress {s t : State} (hs : s.ended = false) (h : exec (actionOf s.state) s = .next t) :
    t.inTransaction = false ∨ effort t < effort s := by
  obtain ⟨he, -⟩ | ⟨-, -, rfl⟩ | ⟨-, hcount, -, rfl⟩ := exec_actionOf_cases h
  · exact absurd (hs.symm.trans he) Bool.false_ne_true
  · exact .inl rfl
  generalize s.pendingChunks.take (needed s.state s) = b
  cases hst : s.state with
  | awaitHeader =>
    rw [hst] at hcount
    obtain ⟨_, _, hnext⟩ | ⟨-, hnext⟩ := actionNext_awaitHeader_cases b (consumed (needed .awaitHeader s) s) <;> rw [hnext]
    · exact .inl rfl
    · refine .inr ?_
      simp only [effort, actionsLeft, consumed, hst, needed] at hcount ⊢
      omega
  | awaitLength =>
    obtain ⟨-, hnext⟩ | ⟨-, hnext⟩ := actionNext_awaitLength_cases b (consumed (needed .awaitLength s) s) <;> rw [hnext]
    · exact .inl rfl
    · refine .inr ?_
      simp only [effort, actionsLeft, consumed, hst]
      omega
  | awaitMaskKey =>
    rw [hst] at hcount
    refine .inr ?_
    simp only [effort, actionNext, actionsLeft, consumed, hst, needed] at hcount ⊢
    omega
  | awaitPayload =>
    obtain ⟨-, hnext⟩ | ⟨-, -, hnext⟩ | ⟨-, -, -, hnext⟩ | ⟨-, -, -, hnext⟩ :=
      actionNext_awaitPayload_cases b (consumed (needed .awaitPayload s) s) <;> rw [hnext]
    · refine .inr ?_
      simp only [effort, actionsLeft, consumed, hst]
      omega
    · exact .inl rfl
    · refine .inr ?_
      simp only [effort, actionsLeft, messageEchoed, consumed, hst]
      omega
    · refine .inr ?_
      simp only [effort, actionsLeft, consumed, hst]
      omega
  | closePending =>
    obtain ⟨_, _, hnext⟩ | hnext := actionNext_closePending_cases b (consumed (needed .closePending s) s) <;> rw [hnext] <;>
      exact .inl rfl

theorem exists_settles {s : State} (hinv : SessionInv s) : ∃ k t, k ≤ effort s ∧ Settles k s t := by
  induction he : effort s using Nat.strong_induction_on generalizing s with
  | _ n ih =>
    subst he
    rcases Bool.eq_false_or_eq_true s.inTransaction with hrun | hrun
    · have hs := hinv.live_of_running hrun
      obtain ⟨t, hact⟩ := exec_total (actionOf s.state) hinv.count
      have hstep : step s = .next t := (step_of_live hinv.noRequest hrun hs).trans hact
      rcases action_progress hs hact with hrest | hless
      · exact ⟨1, t, effort_pos s, .act hrun hstep (.rest hrest)⟩
      · obtain ⟨k, u, hk, hu⟩ := ih _ hless (step_keeps_inv hinv hstep) rfl
        exact ⟨k + 1, u, by omega, .act hrun hstep hu⟩
    · exact ⟨0, s, Nat.zero_le _, .rest hrun⟩

/-- Settles O51: `effort` bounds the run. -/
theorem transactionEnds : Obligations.TransactionEnds := by
  intro s hinv _
  obtain ⟨k, t, hk, ht⟩ := exists_settles hinv
  exact ⟨k, t, hk.trans (effort_le s), ht.runSteps, ht.at_rest⟩

/-! ### Bytes that come later -/

/-- `s` with `more` bytes behind its queue and other events to come. -/
def withMore (more : List Byte) (later : List InputEvent) (s : State) : State :=
  { s with
    pendingChunks := s.pendingChunks ++ more
    bufferedLength := s.bufferedLength + more.length
    inputs := later }

/-- How an answer `t` to `s` changes to `t'` when there are `more` bytes behind the queue: an ended session has discarded them, a
live one has them still, and its loop runs on. -/
def Carried (more : List Byte) (later : List InputEvent) (s t t' : State) : Prop :=
  (t.ended = true ∧ t' = { t with inputs := later }) ∨
  (t.ended = false ∧ t.inTransaction = s.inTransaction ∧ t' = withMore more later t)

section

variable (more : List Byte) (later : List InputEvent) {s : State}

theorem carried_live (hs : s.ended = false) {t : State} (he : t.ended = s.ended)
    (hrun : t.inTransaction = s.inTransaction) : Carried more later s t (withMore more later t) :=
  .inr ⟨he.trans hs, hrun, rfl⟩

theorem carried_closedWith (code : Word) (reason : List Byte) :
    Carried more later s (closedWith code reason s) (closedWith code reason (withMore more later s)) := .inl ⟨rfl, rfl⟩

theorem carried_closeAnswer (first : Option (List Byte)) :
    Carried more later s (closeAnswer first s) (closeAnswer first (withMore more later s)) := by
  unfold closeAnswer
  split
  · exact carried_closedWith more later _ _
  · split_ifs
    · exact carried_closedWith more later _ _
    · exact .inl ⟨rfl, rfl⟩
    · exact carried_closedWith more later _ _

theorem carried_headerNext (hs : s.ended = false) (b : List Byte) :
    Carried more later s (headerNext b s) (headerNext b (withMore more later s)) := by
  unfold headerNext
  split_ifs
  · exact carried_closedWith more later _ _
  · exact carried_closedWith more later _ _
  · exact carried_live more later hs rfl rfl

theorem carried_resolveLength (hs : s.ended = false) (len : Length) :
    Carried more later s (resolveLength len s) (resolveLength len (withMore more later s)) := by
  rcases Nat.lt_or_ge 1048576 (s.totalPayloadLength.toNat + len.toNat) with hcap | hcap
  · rw [resolveLength_of_gt hcap, resolveLength_of_gt (s := withMore more later s) hcap]
    exact carried_closedWith more later _ _
  · rw [resolveLength_of_le hcap, resolveLength_of_le (s := withMore more later s) hcap]
    exact carried_live more later hs rfl rfl

theorem carried_payloadNext (hs : s.ended = false) (b : List Byte) :
    Carried more later s (payloadNext b s) (payloadNext b (withMore more later s)) := by
  by_cases hop : s.opcode = 0x8
  · rw [payloadNext_close hop, payloadNext_close (s := withMore more later s) hop]
    exact carried_live more later hs rfl rfl
  by_cases hlen : s.framePayloadLength = 0
  · rw [payloadNext_empty hop hlen, payloadNext_empty (s := withMore more later s) hop hlen]
    exact carried_closedWith more later _ _
  rcases Bool.eq_false_or_eq_true s.fin with hfin | hfin
  · rw [payloadNext_final hop hlen hfin, payloadNext_final (s := withMore more later s) hop hlen hfin]
    exact carried_live more later hs rfl rfl
  · rw [payloadNext_stored hop hlen hfin, payloadNext_stored (s := withMore more later s) hop hlen hfin]
    exact carried_live more later hs rfl rfl

/-- An action reads nothing behind its own bytes. -/
theorem carried_actionNext (hs : s.ended = false) (st : DecoderState) (b : List Byte) :
    Carried more later s (actionNext st b s) (actionNext st b (withMore more later s)) := by
  cases st with
  | awaitHeader => exact carried_headerNext more later hs b
  | awaitLength => exact carried_resolveLength more later hs _
  | awaitMaskKey => exact carried_live more later hs rfl rfl
  | awaitPayload => exact carried_payloadNext more later hs b
  | closePending => exact carried_closeAnswer more later _

/-- An action that does not suspend does the same with more bytes behind its own. -/
theorem action_withMore {st : DecoderState} {t : State} (hs : s.ended = false)
    (hn : s.bufferedLength = s.pendingChunks.length) (h : exec (actionOf st) s = .next t) :
    t = { s with inTransaction := false } ∨
      ∃ t', exec (actionOf st) (withMore more later s) = .next t' ∧ Carried more later s t t' := by
  obtain ⟨he, -⟩ | ⟨-, -, rfl⟩ | ⟨-, -, hheld, rfl⟩ := exec_actionOf_cases h
  · exact absurd (hs.symm.trans he) Bool.false_ne_true
  · exact .inl rfl
  have hneed : needed st (withMore more later s) = needed st s := by cases st <;> rfl
  have hqueue : (withMore more later s).pendingChunks
      = s.pendingChunks.take (needed st s) ++ (s.pendingChunks.drop (needed st s) ++ more) := by
    rw [← List.append_assoc, List.take_append_drop]
    rfl
  have hcount : (withMore more later s).bufferedLength = (withMore more later s).pendingChunks.length := by
    simp [withMore, hn]
  have hsame : { withMore more later s with
      pendingChunks := s.pendingChunks.drop (needed st s) ++ more
      bufferedLength := (s.pendingChunks.drop (needed st s) ++ more).length }
        = withMore more later (consumed (needed st s) s) := by
    simp [withMore, consumed, hn]
  refine .inr ⟨_, exec_actionOf_of_front st hs hqueue hcount ?_, ?_⟩
  · rw [hneed]
    exact List.length_take_of_le hheld
  · rw [hsame]
    exact carried_actionNext more later (s := consumed (needed st s) s) hs st _

theorem step_withMore {t : State} (hinv : SessionInv s) (hrun : s.inTransaction = true) (h : step s = .next t) :
    t = { s with inTransaction := false } ∨
      ∃ t', step (withMore more later s) = .next t' ∧ Carried more later s t t' := by
  have hs := hinv.live_of_running hrun
  rw [step_of_live hinv.noRequest hrun hs] at h
  rw [step_of_live (s := withMore more later s) hinv.noRequest hrun hs]
  exact action_withMore more later hs hinv.count h

/-! ### Chunks -/

/-- The bytes that were behind a running transaction may as well arrive when it is over. -/
theorem settles_withMore {k : Nat} {t : State} (h : Settles k s t) (hinv : SessionInv s) (hrun : s.inTransaction = true)
    {j : Nat} {u : State} (hu : Settles j (takeEvent (.bytesReceived more) { t with inputs := later }) u) :
    ∃ j', Settles j' (withMore more later s) u := by
  induction h with
  | rest h => exact absurd (h.symm.trans hrun) Bool.false_ne_true
  | @act k s t₁ t h hstep hrest ih =>
    have hinv₁ := step_keeps_inv hinv hstep
    obtain rfl | ⟨t', hstep', ⟨hended, rfl⟩ | ⟨hlive, hrun₁, rfl⟩⟩ := step_withMore more later hinv hrun hstep
    · obtain rfl := hrest.eq_of_rest rfl
      have hs := hinv.live_of_running hrun
      rw [takeEvent, bytesReceived, if_neg (by simp [hs]), ← hrun] at hu
      exact ⟨j, hu⟩
    · obtain rfl := hrest.eq_of_rest (hinv₁.ended hended).stopped
      rw [takeEvent_ended _ (s := { t with inputs := later }) hended] at hu
      exact ⟨j + 1, .act hrun hstep' hu⟩
    · obtain ⟨j', hj'⟩ := ih hinv₁ (hrun₁.trans hrun) hu
      exact ⟨j' + 1, .act hrun hstep' hj'⟩

end

/-- One chunk from a resting state: the step that takes it, then its transaction. -/
theorem run_of_chunk {c : List Byte} {later : List InputEvent} {s u : State} {j : Nat} (hinv : SessionInv s)
    (hrest : s.inTransaction = false) (h : Settles j (takeEvent (.bytesReceived c) { s with inputs := later }) u) :
    runSteps (j + 1) { s with inputs := .bytesReceived c :: later } = .next u := by
  have hstep := step_of_event (s := { s with inputs := .bytesReceived c :: later }) hinv.noRequest hrest rfl
  rw [runSteps_succ hstep]
  exact h.runSteps

/-- A chunk and the bytes of the later ones, in two transactions or in one. -/
theorem settles_append {c d : List Byte} {later : List InputEvent} {s t u : State} {j k : Nat} (hinv : SessionInv s)
    (hrest : s.inTransaction = false)
    (ht : Settles k (takeEvent (.bytesReceived c) { s with inputs := later }) t)
    (hu : Settles j (takeEvent (.bytesReceived d) { t with inputs := [] }) u) :
    ∃ j', Settles j' (takeEvent (.bytesReceived (c ++ d)) { s with inputs := [] }) u := by
  have hinv₁ := takeEvent_keeps_inv (.bytesReceived c) (hinv.with_inputs later)
  rcases Bool.eq_false_or_eq_true s.ended with hs | hs
  · rw [takeEvent_ended _ (s := { s with inputs := later }) hs] at ht
    obtain rfl := ht.eq_of_rest hrest
    rw [takeEvent_ended _ (s := { s with inputs := [] }) hs] at hu ⊢
    exact ⟨j, hu⟩
  · have hlive : ∀ (c : List Byte) (later : List InputEvent),
        takeEvent (.bytesReceived c) { s with inputs := later }
          = { withMore c later s with inTransaction := true } := fun c later => by
      rw [takeEvent, bytesReceived, if_neg (by simp [hs])]
      rfl
    have hone : withMore d [] (takeEvent (.bytesReceived c) { s with inputs := later })
        = takeEvent (.bytesReceived (c ++ d)) { s with inputs := [] } := by
      rw [hlive, hlive]
      simp [withMore, Nat.add_assoc]
    rw [← hone]
    exact settles_withMore d [] ht hinv₁ (by rw [hlive]) hu

/-- Chunks delivered one by one lead to a state to which all their bytes at once lead too. -/
theorem chunks_run (chunks : List (List Byte)) (hne : chunks ≠ []) {s : State} (hinv : SessionInv s)
    (hrest : s.inTransaction = false) :
    ∃ u, (∃ k, runSteps k { s with inputs := chunks.map .bytesReceived } = .next u) ∧
      ∃ j, Settles j (takeEvent (.bytesReceived chunks.flatten) { s with inputs := [] }) u := by
  induction chunks generalizing s with
  | nil => exact absurd rfl hne
  | cons c later ih =>
    have hinv₁ := takeEvent_keeps_inv (.bytesReceived c) (hinv.with_inputs (later.map .bytesReceived))
    obtain ⟨k, t, -, ht⟩ := exists_settles hinv₁
    have hrun := run_of_chunk hinv hrest ht
    cases later with
    | nil => exact ⟨t, ⟨k + 1, hrun⟩, k, by simpa using ht⟩
    | cons d rest =>
      obtain ⟨u, ⟨k', hk'⟩, j, hj⟩ := ih (List.cons_ne_nil d rest) (ht.keeps_inv hinv₁) ht.at_rest
      have hinputs : { t with inputs := (d :: rest).map .bytesReceived } = t := by
        have hin : t.inputs = (d :: rest).map .bytesReceived := (ht.inputs hinv₁).trans (takeEvent_inputs _ _)
        rw [← hin]
      rw [hinputs] at hk'
      exact ⟨u, ⟨k + 1 + k', (runSteps_add hrun k').trans hk'⟩, settles_append hinv hrest ht hj⟩

/-- Settles O52: `chunks_run`, and the transaction of the one chunk is that very run. -/
theorem chunkBoundariesAreNotObservable : Obligations.ChunkBoundariesAreNotObservable := by
  intro s chunks hinv hrest _ hne
  obtain ⟨u, ⟨k, hk⟩, j, hj⟩ := chunks_run chunks hne hinv hrest
  have hinv₁ := takeEvent_keeps_inv (.bytesReceived chunks.flatten) (hinv.with_inputs [])
  exact ⟨k, j + 1, u, hk, run_of_chunk hinv hrest hj, hj.at_rest, (hj.inputs hinv₁).trans (takeEvent_inputs _ _)⟩

end Sys2Proof.Machine
end

section

/-! # A frame is its actions, a message is its frames (spec/45_frame_types.md section 1, spec/41_fragment_reassembler.md) -/

namespace Sys2Proof.Machine

/-! ### A whole frame is its actions -/

/-- `s` with `q` for its queue. -/
def withQueue (q : List Byte) (s : State) : State := { s with pendingChunks := q, bufferedLength := q.length }

/-- `s` is inside a transaction of a live session, with nothing at the port. -/
structure Running (s : State) : Prop where
  noRequest : s.request = none
  running   : s.inTransaction = true
  live      : s.ended = false

/-- One action of a running transaction, its bytes at the front of the queue. -/
theorem Running.step_front {s : State} (h : Running s) (st : DecoderState) (hst : s.state = st) {b : List Byte}
    (hb : b.length = needed st s) (q : List Byte) :
    step (withQueue (b ++ q) s) = .next (actionNext st b (withQueue q s)) := by
  subst hst
  have hneed : needed s.state (withQueue (b ++ q) s) = needed s.state s := by
    generalize s.state = st
    cases st <;> rfl
  rw [step_of_live (s := withQueue (b ++ q) s) h.noRequest h.running h.live]
  exact exec_actionOf_of_front s.state h.live rfl rfl (hb.trans hneed.symm)

/-- CLOSE_PENDING needs no byte. -/
theorem Running.step_close {s : State} (h : Running s) (hst : s.state = .closePending) :
    step s = .next (closeAnswer s.fragments.head? s) := by
  rw [step_of_live h.noRequest h.running h.live, hst]
  exact exec_closePending h.live

/-- `s` with the header of `f` taken, its length next. -/
def headerTaken (op : BitVec 4) (f : RxFrame) (s : State) : State :=
  { s with
    state := .awaitLength
    fin := f.fin
    opcode := op
    masked := true
    payloadSizeIndicator := lengthIndicator f.len }

/-- `s` with the length of `f` taken too, its key next. -/
def lengthTaken (op : BitVec 4) (f : RxFrame) (s : State) : State :=
  { headerTaken op f s with
    state := .awaitMaskKey
    framePayloadLength := lengthValue f.len
    totalPayloadLength := s.totalPayloadLength + lengthValue f.len }

/-- `s` with header, length and key of `f` taken, its payload next. -/
def keyTaken (op : BitVec 4) (f : RxFrame) (s : State) : State :=
  { headerAndKeyWritten op f s with state := .awaitPayload }

/-- `s` with the CLOSE frame `f` taken whole, the close handler next. -/
def closeStored (f : RxFrame) (s : State) : State :=
  { keyTaken 0x8 f s with
    state := .closePending
    fragments := if f.wire = [] then s.fragments else s.fragments ++ [unmask f.wire f.key]
    framesReceived := s.framesReceived + 1 }

section

variable {i : Instr} {op : BitVec 4} {f : RxFrame} {s : State}

theorem step_header (h : Running s) (hst : s.state = .awaitHeader) (hop : isPingPong op = false) (q : List Byte) :
    step (withQueue (encodeFrameRow op f ++ q) s) = .next (withQueue (frameBody f ++ q) (headerTaken op f s)) := by
  have hstep := h.step_front .awaitHeader hst
    (b := [headerByte0 f.fin f.rsv op, headerByte1 true (lengthIndicator f.len)]) rfl (frameBody f ++ q)
  have hnext := headerNext_taken (b := [headerByte0 f.fin f.rsv op, headerByte1 true (lengthIndicator f.len)])
    (s := withQueue (frameBody f ++ q) s) (headerMask_headerByte1 ..) (by simpa [byteAt] using hop)
  rw [encodeFrameRow_eq]
  refine hstep.trans (congrArg _ (hnext.trans ?_))
  simp [headerTaken, withQueue, byteAt]

theorem step_length (h : Running s) (hwf : f.wf = true) (q : List Byte) :
    step (withQueue (lengthExtension f.len ++ q) (headerTaken op f s))
      = .next (resolveLength (lengthValue f.len) (withQueue q (headerTaken op f s))) := by
  have hlen := ((RxFrame.wf_iff f).1 hwf).1
  have hrun : Running (headerTaken op f s) := ⟨h.noRequest, h.running, h.live⟩
  have hstep := hrun.step_front .awaitLength rfl (lengthExtension_length f.len hlen) q
  rw [hstep, ← inboundLength_parts hlen]
  rfl

theorem step_length_of_le (h : Running s) (hwf : f.wf = true) (hcap : s.totalPayloadLength.toNat + f.len.toNat ≤ 1048576)
    (q : List Byte) :
    step (withQueue (lengthExtension f.len ++ q) (headerTaken op f s)) = .next (withQueue q (lengthTaken op f s)) := by
  rw [step_length h hwf]
  rw [← lengthValue_toNat] at hcap
  obtain ⟨hbig, -⟩ | ⟨-, hnext⟩ := resolveLength_cases (lengthValue f.len) (withQueue q (headerTaken op f s))
  · exact absurd hcap (Nat.not_le.2 hbig)
  · rw [hnext]
    rfl

theorem step_length_of_gt (h : Running s) (hwf : f.wf = true) (hcap : 1048576 < s.totalPayloadLength.toNat + f.len.toNat)
    (q : List Byte) :
    step (withQueue (lengthExtension f.len ++ q) (headerTaken op f s)) = .next (closedWith 1009 config.reasonTooBig s) := by
  rw [← lengthValue_toNat] at hcap
  rw [step_length h hwf, resolveLength_of_gt (s := withQueue q (headerTaken op f s)) hcap]
  rfl

theorem step_key (h : Running s) (q : List Byte) :
    step (withQueue ([f.key.k0, f.key.k1, f.key.k2, f.key.k3] ++ q) (lengthTaken op f s))
      = .next (withQueue q (keyTaken op f s)) :=
  Running.step_front (s := lengthTaken op f s) ⟨h.noRequest, h.running, h.live⟩ .awaitMaskKey rfl rfl q

theorem step_payload (h : Running s) (hwf : f.wf = true) (q : List Byte) :
    step (withQueue (f.wire ++ q) (keyTaken op f s)) = .next (payloadNext f.wire (withQueue q (keyTaken op f s))) :=
  Running.step_front (s := keyTaken op f s) ⟨h.noRequest, h.running, h.live⟩ .awaitPayload rfl
    (((RxFrame.wf_iff f).1 hwf).2.trans (lengthValue_toNat f.len).symm) q

/-- Header, length and key, within the cap. -/
theorem run_to_payload (h : Running s) (hst : s.state = .awaitHeader) (hop : isPingPong op = false) (hwf : f.wf = true)
    (hcap : s.totalPayloadLength.toNat + f.len.toNat ≤ 1048576) (q : List Byte) :
    runSteps 3 (withQueue (encodeFrameRow op f ++ q) s) = .next (withQueue (f.wire ++ q) (keyTaken op f s)) := by
  have hbody : frameBody f ++ q
      = lengthExtension f.len ++ ([f.key.k0, f.key.k1, f.key.k2, f.key.k3] ++ (f.wire ++ q)) := by simp [frameBody]
  rw [runSteps_succ (step_header h hst hop q), hbody, runSteps_succ (step_length_of_le h hwf hcap _),
    runSteps_succ (step_key h _)]
  rfl

/-- What AWAIT_PAYLOAD does at the end of a data frame is what the whole frame does. -/
theorem payloadNext_eq_dataFrame (hop : op ≠ 0x8) (hwf : f.wf = true)
    (hcap : s.totalPayloadLength.toNat + f.len.toNat ≤ 1048576) : payloadNext f.wire (keyTaken op f s) = dataFrame op f s := by
  by_cases hlen : f.len.toNat = 0
  · rw [dataFrame_empty hcap hlen, payloadNext_empty (s := keyTaken op f s) hop (lengthValue_eq_zero.2 hlen)]
    rfl
  have hlen' : (keyTaken op f s).framePayloadLength ≠ 0 := mt lengthValue_eq_zero.1 hlen
  rw [dataFrame_of_le hwf hcap (Nat.pos_of_ne_zero hlen)]
  split_ifs with hfin
  · rw [payloadNext_final (s := keyTaken op f s) hop hlen' hfin]
    rfl
  · rw [payloadNext_stored (s := keyTaken op f s) hop hlen' (by simpa [keyTaken, headerAndKeyWritten] using hfin)]
    rfl

/-- AWAIT_PAYLOAD and CLOSE_PENDING at the end of a CLOSE frame do what the whole frame does. -/
theorem run_close_payload (h : Running s) (hwf : f.wf = true)
    (hcap : s.totalPayloadLength.toNat + f.len.toNat ≤ 1048576) (q : List Byte) :
    runSteps 2 (withQueue (f.wire ++ q) (keyTaken 0x8 f s)) = .next (closeFrame f (withQueue q s)) := by
  have hclose : payloadNext f.wire (withQueue q (keyTaken 0x8 f s)) = withQueue q (closeStored f s) := payloadNext_close rfl
  have hstored : Running (withQueue q (closeStored f s)) := ⟨h.noRequest, h.running, h.live⟩
  rw [runSteps_succ (step_payload h hwf q), hclose, runSteps_succ (hstored.step_close rfl),
    closeFrame_of_le (s := withQueue q s) hcap]
  exact congrArg _ (closeAnswer_congr (s := withQueue q s) _ rfl rfl rfl rfl)

theorem run_frame (hrow : IsFrameRow i op f) (h : Running s) (hst : s.state = .awaitHeader) (hwf : f.wf = true)
    (q : List Byte) :
    ∃ k t, k ≤ 5 ∧ exec i (withQueue q s) = .next t ∧ runSteps k (withQueue (encodeFrameRow op f ++ q) s) = .next t := by
  obtain ⟨-, -, -, -, hop⟩ := hrow.row_facts
  rcases Nat.lt_or_ge 1048576 (s.totalPayloadLength.toNat + f.len.toNat) with hcap | hcap
  · obtain ⟨hbig, -⟩ := oversizedMessageGets1009
    refine ⟨2, _, by decide, hbig i op f (withQueue q s) (hrow.imp_right And.left) h.live hcap, ?_⟩
    rw [runSteps_succ (step_header h hst hop q), frameBody, List.append_assoc,
      runSteps_succ (step_length_of_gt h hwf hcap _)]
    rfl
  have hpayload := run_to_payload h hst hop hwf hcap q
  rcases hrow with hdata | ⟨rfl, rfl⟩
  · refine ⟨4, _, by decide, hdata.exec_live (s := withQueue q s) h.live, ?_⟩
    rw [runSteps_add hpayload 1, runSteps_succ (step_payload h hwf q)]
    exact congrArg _ (payloadNext_eq_dataFrame (s := withQueue q s) hdata.opcode_ne_close hwf hcap)
  · refine ⟨5, _, by decide, exec_rxClose (s := withQueue q s) h.live, ?_⟩
    rw [runSteps_add hpayload 2, run_close_payload h hwf hcap q]

end

/-- A frame judged on its header is one step. -/
theorem run_header {s : State} (h : Running s) (hst : s.state = .awaitHeader) (b0 b1 : Byte) (q : List Byte) :
    runSteps 1 (withQueue ([b0, b1] ++ q) s) = .next (headerNext [b0, b1] (withQueue q s)) :=
  runSteps_succ (h.step_front .awaitHeader hst (b := [b0, b1]) rfl q) 0

/-- Settles O53: a frame read to its end by `run_frame`, the others by the one step of AWAIT_HEADER. -/
theorem wholeFrameEqualsItsActions : Obligations.WholeFrameEqualsItsActions := by
  intro i rest s hp hwf hr hrun hs hst hq hn
  have h : Running s := ⟨hr, hrun, hs⟩
  have hqueue : s = withQueue (encode i ++ rest) s := by
    rw [← hq, withQueue, ← hn]
  rw [hqueue]
  rcases rx_forms hp with ⟨op, f, hrow⟩ | ⟨op, hd, hop, rfl⟩ | ⟨hd, rfl⟩
  · obtain ⟨-, hwf', hcode, -, -⟩ := hrow.row_facts
    rw [hcode]
    exact run_frame hrow h hst (hwf' ▸ hwf) rest
  · obtain ⟨-, -, hcode⟩ := encode_headerRow op hd hop
    have hexec : exec (headerRow op hd) (withQueue rest s)
        = .next (closedWith 1003 config.reasonPingPong (withQueue rest s)) := by
      obtain ⟨hping, hpong⟩ := pingAndPongGet1003.1 hd (withQueue rest s) hs
      rcases hop with rfl | rfl
      · exact hping
      · exact hpong
    have hop' : isPingPong op = true := by rcases hop with rfl | rfl <;> rfl
    refine ⟨1, _, by decide, hexec, ?_⟩
    rw [hcode, run_header h hst]
    exact congrArg _ (headerNext_pingPong (headerMask_headerByte1 ..) (by simpa [byteAt] using hop'))
  · refine ⟨1, _, by decide, unmaskedFrameEndsSession.1 hd (withQueue rest s) hs, ?_⟩
    rw [encode, run_header h hst]
    exact congrArg _ (headerNext_unmasked (headerMask_headerByte1 ..))

/-! ### A message is its frames (R157) -/

theorem runFrames_cons {i : Instr} {s t : State} (h : exec i s = .next t) (later : List Instr) :
    runFrames (i :: later) s = runFrames later t := by
  rw [runFrames, h]

section

variable {i : Instr} {p : List Byte} {fin : Bool} {s : State}

/-- The payload is what the codec makes of the wire bytes, and as long as the length field says. -/
theorem Carries.frame (h : Carries i p fin) :
    ∃ op f, IsDataRow i op f ∧ i.wf = true ∧ f.fin = fin ∧ unmask f.wire f.key = p ∧ f.len.toNat = p.length ∧
      0 < p.length := by
  obtain ⟨op, f, hrow, hwf, hwire, hfin, hne⟩ := h
  have hlen := ((RxFrame.wf_iff f).1 (hrow.wf_eq ▸ hwf)).2
  rw [hwire, unmask_length] at hlen
  exact ⟨op, f, hrow, hwf, hfin, by rw [hwire, unmaskTwiceIsIdentity], hlen.symm, List.length_pos_iff.2 hne⟩

theorem Carries.exec_final (h : Carries i p true) (hs : s.ended = false)
    (hcap : s.totalPayloadLength.toNat + p.length ≤ 1048576) :
    exec i s = .next (messageEchoed (s.fragments.flatten ++ p) s) := by
  obtain ⟨op, f, hrow, hwf, hfin, rfl, hlen, hpos⟩ := h.frame
  rw [← hlen] at hcap hpos
  exact dataFrameFinalEchoesMessage i op f s hrow hwf hs hcap hpos hfin

/-- What a fragment leaves matters to the rest of the message only by what is stored and counted. -/
theorem Carries.exec_fragment (h : Carries i p false) (hs : s.ended = false)
    (hcap : s.totalPayloadLength.toNat + p.length ≤ 1048576) :
    ∃ t, exec i s = .next t ∧ t.ended = false ∧ t.fragments = s.fragments ++ [p] ∧
      t.totalPayloadLength.toNat = s.totalPayloadLength.toNat + p.length ∧
      ∀ m, messageEchoed m t = messageEchoed m s := by
  obtain ⟨op, f, hrow, hwf, hfin, rfl, hlen, hpos⟩ := h.frame
  rw [← hlen] at hcap hpos ⊢
  refine ⟨_, dataFrameNotFinalIsStored i op f s hrow hwf hs hcap hpos hfin, hs, rfl, ?_, fun _ => rfl⟩
  rw [← lengthValue_toNat] at hcap ⊢
  exact add_toNat_of_le hcap

end

/-- R157 from any stored data: the message in progress is completed and echoed. -/
theorem runFrames_message {last : Instr} {p : List Byte} (hlast : Carries last p true) (parts : List (Instr × List Byte))
    (hparts : ∀ x ∈ parts, Carries x.1 x.2 false) {s : State} (hs : s.ended = false)
    (hcap : s.totalPayloadLength.toNat + ((parts.map Prod.snd).flatten ++ p).length ≤ 1048576) :
    runFrames (parts.map Prod.fst ++ [last]) s
      = .next (messageEchoed (s.fragments.flatten ++ ((parts.map Prod.snd).flatten ++ p)) s) := by
  induction parts generalizing s with
  | nil => exact (runFrames_cons (hlast.exec_final hs hcap) []).trans rfl
  | cons x later ih =>
    obtain ⟨hx, hlater⟩ : Carries x.1 x.2 false ∧ ∀ y ∈ later, Carries y.1 y.2 false := by simpa using hparts
    simp only [List.map_cons, List.flatten_cons, List.append_assoc, List.length_append] at hcap ⊢
    obtain ⟨t, hexec, ht, hfragments, htotal, hecho⟩ := hx.exec_fragment hs (by omega)
    rw [List.cons_append, runFrames_cons hexec, ih hlater ht (by rw [htotal, List.length_append]; omega), hfragments,
      List.flatten_concat, hecho, List.append_assoc]

/-- Settles O54: `runFrames_message` from no stored data. -/
theorem fragmentsReassembleInOrder : Obligations.FragmentsReassembleInOrder := by
  intro parts last p s hparts hlast hs htotal hfragments hcap
  have hrun := runFrames_message hlast parts hparts hs (by rw [htotal]; simpa using hcap)
  rw [hfragments] at hrun
  exact ⟨_, hrun, rfl, hs, rfl, rfl, rfl, rfl, rfl, rfl⟩

end Sys2Proof.Machine
end
